-- ==== Sys2Proof/Word.lean ====
section
/-! DEFINITION. The words of the block: the widths the spec gives its register-layer words.
Bit 0 is the least significant bit (00_scope.md R6); a single bit is a `Bool`. -/

namespace Sys2Proof

/-- A 32-bit word of the register layer: formats DATA32 and RL32 (30_encoding.md R88, R91). -/
abbrev Word := BitVec 32

/-- The 16-bit whiteness control word, format WMCTL (30_encoding.md R81). -/
abbrev ControlWord := BitVec 16

/-- The sixteen 16-bit chunks of a reseed (41_prng_combiner.md R137). -/
abbrev SeedChunks := Vector (BitVec 16) 16

end Sys2Proof
end

