-- ==== Sys2Proof/Syntax.lean ====
section
/-! DEFINITION. The operations of the block (30_encoding.md R93) and the eight patterns of its control
word (R84): one constructor per row of spec/opcode_table.json. One-bit operands are `Bool`, an index
0..3 is `Fin 4`, an unbounded operand is a natural number. -/

namespace Sys2Proof

/-- The instruction set: the eight control-word patterns, then the nineteen operations of R93. -/
inductive Instr where
  /-- `WM.COUNT.ONES`, `(mode, subtype) = (0,0)` (44_whiteness_modes.md R222). -/
  | wmCountOnes (onlyValid : Bool) (data : BitVec 8)
  /-- `WM.COUNT.TOGGLES`, `(0,1)` (R223). -/
  | wmCountToggles (onlyValid : Bool) (data : BitVec 8)
  /-- `WM.RUNLEN`, `(1,0)` (R224). -/
  | wmRunlen (onlyValid : Bool) (data : BitVec 8)
  /-- `WM.ILLEGAL`, `(1,1)` (30_encoding.md R85). -/
  | wmIllegal (onlyValid : Bool) (data : BitVec 8)
  /-- `WM.TMATCH.NOVL`, `(2,0)` (R225, R226). -/
  | wmTmatchNovl (onlyValid : Bool) (data : BitVec 8)
  /-- `WM.TMATCH.OVL`, `(2,1)` (R225, R227). -/
  | wmTmatchOvl (onlyValid : Bool) (data : BitVec 8)
  /-- `WM.MAXEXC.MAX`, `(3,0)` (R228, R229). -/
  | wmMaxexcMax (onlyValid : Bool) (data : BitVec 8)
  /-- `WM.MAXEXC.HIT`, `(3,1)` (R228, R230). -/
  | wmMaxexcHit (onlyValid : Bool) (data : BitVec 8)
  /-- `LFSR.NEW(width, polynomial)`; the list names its SET of tap positions (40_lfsr.md R110). -/
  | lfsrNew (width : Nat) (taps : List Nat)
  /-- `LFSR.SET(value)` (R111). -/
  | lfsrSet (value : Nat)
  /-- `LFSR.GET(k)`; `none` is the omitted operand, `k = width` (R112). -/
  | lfsrGet (k : Option Nat)
  /-- `LFSR.CLOCK(n)` (R114). -/
  | lfsrClock (n : Nat)
  /-- `PRNG.SET(i, value)` (41_prng_combiner.md R139). -/
  | prngSet (i : Fin 4) (value : Nat)
  /-- `PRNG.CLOCK(n)` (R133). -/
  | prngClock (n : Nat)
  /-- `PRNG.GETVALUE()` (R134). -/
  | prngGetvalue
  /-- `PRNG.MIX(i, chunk)` (R136). -/
  | prngMix (i : Fin 4) (chunk : BitVec 16)
  /-- `PRNG.SEED(c[0..15])` (R137). -/
  | prngSeed (chunks : SeedChunks)
  /-- `PRNG.CFGWR(enable, min_valid)` (45_top_and_interface.md R261). -/
  | prngCfgwr (enable : Bool) (minValid : BitVec 3)
  /-- `PRNG.RD()` (R262). -/
  | prngRd
  /-- `EMUX.DRIVE(sample)` (42_entropy_mux.md R161). -/
  | emuxDrive (sample : BitVec 4)
  /-- `WM.CTLWR(request, continuous, source, control)` (43_whiteness_control.md R181). -/
  | wmCtlwr (request continuous source : Bool) (control : ControlWord)
  /-- `WM.RLWR(value)` (R191). -/
  | wmRlwr (value : Word)
  /-- `WM.RD0()` (R192). -/
  | wmRd0
  /-- `WM.RD1()` (R192). -/
  | wmRd1
  /-- `STATUS.RD()` (R193). -/
  | statusRd
  /-- `TICK(sample)` (45_top_and_interface.md R260). -/
  | tick (sample : BitVec 4)
  /-- `RESET()` (70_reset_and_hazards.md R330). -/
  | reset
  deriving DecidableEq, Repr

/-- What the outside world hands the block: a raw word in one of the spec's bit formats, or an operation
taken by its name, as 20_memory.md R68 has a model take every operation that no source gives bits. -/
inductive Request where
  /-- A raw word of `nbits` bits with value `bits`. -/
  | word (nbits bits : Nat)
  /-- An operation by name. -/
  | named (i : Instr)
  deriving DecidableEq, Repr

end Sys2Proof
end

