-- ==== Sys2Proof/WellFormed.lean ====
section
/-! DEFINITION. Which operand values are in an operation's domain. Every operand but those of `LFSR.NEW`
has a type that admits its legal values only, or values whose rejection is the operation's own effect
(`PRNG.CFGWR` with `min_valid` 5 to 7, a control word of mode 1 subtype 1). -/

namespace Sys2Proof

/-- `width` is a positive integer and every tap is a position of the register (40_lfsr.md R110, D1, D36). -/
def lfsrDomain (width : Nat) (taps : List Nat) : Bool :=
  decide (0 < width) && taps.all (fun p => decide (p < width))

/-- The operands of an instruction are in its domain. -/
def Instr.wellFormed : Instr → Bool
  | .lfsrNew width taps => lfsrDomain width taps
  | .wmCountOnes _ _ | .wmCountToggles _ _ | .wmRunlen _ _ | .wmIllegal _ _ => true
  | .wmTmatchNovl _ _ | .wmTmatchOvl _ _ | .wmMaxexcMax _ _ | .wmMaxexcHit _ _ => true
  | .lfsrSet _ | .lfsrGet _ | .lfsrClock _ => true
  | .prngSet _ _ | .prngClock _ | .prngGetvalue | .prngMix _ _ | .prngSeed _ => true
  | .prngCfgwr _ _ | .prngRd | .emuxDrive _ => true
  | .wmCtlwr _ _ _ _ | .wmRlwr _ | .wmRd0 | .wmRd1 | .statusRd => true
  | .tick _ | .reset => true

end Sys2Proof
end

