-- ==== Sys2Proof/Decode.lean ====
section
/-! DEFINITION. From requests to instructions and back. The only formats with bit positions are the control
word WMCTL (30_encoding.md R81, R84) and the whole 32-bit run-length word RL32 (R91); every other operation
is taken by name (R95, 20_memory.md R68; notes/assumptions 5). Decoding is total and rejects by name. -/

namespace Sys2Proof

/-- `mode = c[15:14]` (R83). -/
def Control.mode (c : ControlWord) : BitVec 2 := c.extractLsb' 14 2
/-- `subtype = c[13]` (R83). -/
def Control.subtype (c : ControlWord) : Bool := c.getLsbD 13
/-- `only_valid = c[12]` (R83). -/
def Control.onlyValid (c : ControlWord) : Bool := c.getLsbD 12
/-- `data = c[7:0]` (R83). -/
def Control.data (c : ControlWord) : BitVec 8 := c.extractLsb' 0 8

/-- The one illegal pattern, bits 15:13 = 0b011 (R85). -/
def Control.illegal (c : ControlWord) : Bool :=
  decide (Control.mode c = 1#2) && Control.subtype c

/-- `mode<<14 | subtype<<13 | only_valid<<12 | data`, the reserved bits 11:8 zero (R81, R82). -/
def Control.pack (mode : BitVec 2) (subtype onlyValid : Bool) (data : BitVec 8) : ControlWord :=
  mode.setWidth 16 <<< 14 ||| (BitVec.ofBool subtype).setWidth 16 <<< 13 |||
    (BitVec.ofBool onlyValid).setWidth 16 <<< 12 ||| data.setWidth 16

/-- The opcode map of the control word (R84): bits 15, 14, 13 choose the row, bits 11:8 are ignored (R82). -/
def decodeControl (c : ControlWord) : Instr :=
  match c.getLsbD 15, c.getLsbD 14, c.getLsbD 13 with
  | false, false, false => .wmCountOnes (Control.onlyValid c) (Control.data c)
  | false, false, true => .wmCountToggles (Control.onlyValid c) (Control.data c)
  | false, true, false => .wmRunlen (Control.onlyValid c) (Control.data c)
  | false, true, true => .wmIllegal (Control.onlyValid c) (Control.data c)
  | true, false, false => .wmTmatchNovl (Control.onlyValid c) (Control.data c)
  | true, false, true => .wmTmatchOvl (Control.onlyValid c) (Control.data c)
  | true, true, false => .wmMaxexcMax (Control.onlyValid c) (Control.data c)
  | true, true, true => .wmMaxexcHit (Control.onlyValid c) (Control.data c)

/-- Why a raw word is no operation. -/
inductive Reject where
  /-- No operand format of the spec has this many bits. -/
  | noFormat (nbits : Nat)
  /-- The value does not fit the word's width. -/
  | tooWide (nbits bits : Nat)
  deriving DecidableEq, Repr

/-- A raw word: 16 bits are a control word, 32 bits a run length, nothing else has a format. -/
def decodeWord (nbits bits : Nat) : Except Reject Instr :=
  if 2 ^ nbits ≤ bits then .error (.tooWide nbits bits)
  else if nbits = 16 then .ok (decodeControl (BitVec.ofNat 16 bits))
  else if nbits = 32 then .ok (.wmRlwr (BitVec.ofNat 32 bits))
  else .error (.noFormat nbits)

/-- The decoder of the block's input. -/
def decode : Request → Except Reject Instr
  | .word nbits bits => decodeWord nbits bits
  | .named i => .ok i

/-- What the decoder reads from an instruction word of the opcode table. -/
def decodeTableWord (nbits w : Nat) : Option Instr :=
  match decode (.word nbits w) with
  | .ok i => some i
  | .error _ => none

/-- The control word of a pattern; `none` for an operation that is no pattern (R84). -/
def encodeControl : Instr → Option ControlWord
  | .wmCountOnes v d => some (Control.pack 0#2 false v d)
  | .wmCountToggles v d => some (Control.pack 0#2 true v d)
  | .wmRunlen v d => some (Control.pack 1#2 false v d)
  | .wmIllegal v d => some (Control.pack 1#2 true v d)
  | .wmTmatchNovl v d => some (Control.pack 2#2 false v d)
  | .wmTmatchOvl v d => some (Control.pack 2#2 true v d)
  | .wmMaxexcMax v d => some (Control.pack 3#2 false v d)
  | .wmMaxexcHit v d => some (Control.pack 3#2 true v d)
  | .lfsrNew _ _ | .lfsrSet _ | .lfsrGet _ | .lfsrClock _ => none
  | .prngSet _ _ | .prngClock _ | .prngGetvalue | .prngMix _ _ | .prngSeed _ => none
  | .prngCfgwr _ _ | .prngRd | .emuxDrive _ => none
  | .wmCtlwr _ _ _ _ | .wmRlwr _ | .wmRd0 | .wmRd1 | .statusRd => none
  | .tick _ | .reset => none

/-- The request that carries an instruction: its word where the spec gives it one, else its name. -/
def encode (i : Instr) : Request :=
  match i with
  | .wmRlwr v => .word 32 v.toNat
  | i =>
    match encodeControl i with
    | some c => .word 16 c.toNat
    | none => .named i

end Sys2Proof
end

