-- ==== Sys2Proof/Config.lean ====
section
/-! DEFINITION. What an implementation fixes (00_scope.md R5). A parameter the spec marks OPEN is an opaque
constant: nothing here or in any proof can see its value, so a claim holds for every legal value
(notes/assumptions 7). The types keep each one legal: a tap set of width `W` lists elements of `Fin W`,
an observation position of width `W` is a `Fin W`, and the combiner's tap sets are pairwise distinct. The
block's own parameters stand in Machine/Hardware.lean. -/

namespace Sys2Proof

/-- Two lists name different tap sets. -/
def tapsDiffer (a b : List Nat) : Bool := !(a.all b.contains && b.all a.contains)

/-- Legal values of `PRNG_POLY[0..3]`: four tap sets, pairwise distinct (41_prng_combiner.md R130, D3). -/
structure PrngPolys where
  prngPoly0 : List (Fin 47)
  prngPoly1 : List (Fin 53)
  prngPoly2 : List (Fin 59)
  prngPoly3 : List (Fin 61)
  prngDistinct : [prngPoly0.map Fin.val, prngPoly1.map Fin.val, prngPoly2.map Fin.val,
    prngPoly3.map Fin.val].Pairwise (fun a b => tapsDiffer a b = true)

/-- Four distinct tap sets exist. Nothing but the opaque constant below is given this value, and it shows
none of it. -/
abbrev PrngPolys.exist : Inhabited PrngPolys := ⟨[], [0], [1], [2], by decide⟩

/-- `PRNG_POLY`, OPEN, for whatever shows that legal values exist. -/
opaque Config.prngPolys [Inhabited PrngPolys] : PrngPolys
/-- `EMUX_POLY[0]`, OPEN (42_entropy_mux.md R160, D4). -/
opaque Config.emuxPoly0 : List (Fin 5)
/-- `EMUX_POLY[1]`, OPEN. -/
opaque Config.emuxPoly1 : List (Fin 6)
/-- `EMUX_POLY[2]`, OPEN. -/
opaque Config.emuxPoly2 : List (Fin 7)
/-- `EMUX_POLY[3]`, OPEN. -/
opaque Config.emuxPoly3 : List (Fin 8)
/-- `EMUX_OBS[0]`, OPEN (R160, D4). -/
opaque Config.emuxObs0 : Fin 5
/-- `EMUX_OBS[1]`, OPEN. -/
opaque Config.emuxObs1 : Fin 6
/-- `EMUX_OBS[2]`, OPEN. -/
opaque Config.emuxObs2 : Fin 7
/-- `EMUX_OBS[3]`, OPEN. -/
opaque Config.emuxObs3 : Fin 8
/-- `EMUX_ACTIVE_FN(sample, last_sample)`, OPEN (R163, D13). -/
opaque Config.emuxActiveFn : BitVec 4 → BitVec 4 → Bool
/-- `SEED_SOURCE`, OPEN (R138, D7). A seed value is a string, as in DOC's own scenario (notes/assumptions 9). -/
opaque Config.seedSource : String → SeedChunks
/-- The sample on the entropy input when the clock ticks by itself for the `n`-th time: a free value
(93_implementation_defined.md U17, notes/assumptions 2). -/
opaque Config.freeSample : Nat → BitVec 4

/-- The parameters the operations of the block depend on. -/
structure Params extends PrngPolys where
  emuxPoly0 : List (Fin 5)
  emuxPoly1 : List (Fin 6)
  emuxPoly2 : List (Fin 7)
  emuxPoly3 : List (Fin 8)
  emuxObs0 : Fin 5
  emuxObs1 : Fin 6
  emuxObs2 : Fin 7
  emuxObs3 : Fin 8
  emuxActiveFn : BitVec 4 → BitVec 4 → Bool
  /-- `PRNG_STEPS_PER_TICK` (41_prng_combiner.md R141, D9). -/
  stepsPerTick : Nat
  /-- `WM_BUDGET_COUNTS_SKIPPED` (43_whiteness_control.md R187, D20). -/
  budgetCountsSkipped : Bool
  /-- `WM_PACK`, from counters 0 to 3 to the result (30_encoding.md R89, D22, conflict C2). -/
  wmPack : BitVec 32 → BitVec 32 → BitVec 32 → BitVec 32 → BitVec 64

end Sys2Proof
end

