-- ==== Sys2Proof/Machine/State.lean ====
section
/-! DEFINITION. The state of the block: every item of 10_state.md R20's table under its own name, the
free-standing LFSR of a test bench, and three fields of the model's own (`reply`, `inbox`, `draws`).
Plain data throughout. There is no program counter and no memory (R36, R37). -/

namespace Sys2Proof.Machine

/-- What the monitor samples: 0 = EntropyIn, 1 = PrngOut (30_encoding.md R86). -/
inductive Source where
  | entropyIn
  | prngOut
  deriving DecidableEq, Repr

/-- `wm.state` (10_state.md R31). -/
inductive MonitorState where
  | idle
  | running
  | done
  deriving DecidableEq, Repr

/-- One combiner LFSR: `prng.lfsr[i].state` and `prng.recovered[i]` (R22, R24). -/
structure Channel (w : Nat) where
  state : BitVec w
  recovered : Bool
  deriving DecidableEq, Repr

/-- PrngCombiner (R22 to R25). -/
structure Prng where
  lfsr0 : Channel 47
  lfsr1 : Channel 53
  lfsr2 : Channel 59
  lfsr3 : Channel 61
  enable : Bool
  minValid : BitVec 3
  deriving DecidableEq, Repr

/-- EntropyMux (R26 to R28). -/
structure Emux where
  lfsr0 : BitVec 5
  lfsr1 : BitVec 6
  lfsr2 : BitVec 7
  lfsr3 : BitVec 8
  lastSample : BitVec 4
  active : Bool
  deriving DecidableEq, Repr

/-- Configuration registers `wm.cfg.*` (R29). -/
structure MonitorConfig where
  continuous : Bool
  source : Source
  control : ControlWord
  runLength : Word
  deriving DecidableEq, Repr

/-- Latched registers `wm.l.*` (R30). -/
structure MonitorLatch where
  mode : BitVec 2
  subtype : Bool
  onlyValid : Bool
  data : BitVec 8
  runLength : Word
  source : Source
  deriving DecidableEq, Repr

/-- `wm.counters[0..3]` (R33). -/
structure Counters where
  c0 : BitVec 32
  c1 : BitVec 32
  c2 : BitVec 32
  c3 : BitVec 32
  deriving DecidableEq, Repr

/-- WhitenessMonitor (R29 to R35). -/
structure Monitor where
  cfg : MonitorConfig
  l : MonitorLatch
  state : MonitorState
  remaining : BitVec 32
  counters : Counters
  prevValid : Bool
  prevBit : Bool
  run : BitVec 32
  window : BitVec 6
  fill : BitVec 3
  /-- Two's complement. -/
  sum : BitVec 33
  result : BitVec 64
  resultValid : Bool
  deriving DecidableEq, Repr

/-- A free-standing LFSR instance: width, tap set (ascending positions), state (R21). -/
structure Lfsr where
  width : Nat
  taps : List Nat
  state : BitVec width
  deriving DecidableEq, Repr

/-- The two errors of an operation (00_scope.md R8, 60_exceptions.md R300). -/
inductive OpError where
  | configurationError
  | invalidTestMode
  deriving DecidableEq, Repr

/-- The result of an operation (00_scope.md R8). -/
inductive Reply where
  /-- `Ok`. -/
  | ok
  /-- `Ok(value)` of `LFSR.GET`. -/
  | value (v : Nat)
  /-- `Ok(valid, bit)` of `PRNG.GETVALUE`. -/
  | pair (valid bit : Bool)
  /-- `Ok(word)` of `PRNG.RD`, `WM.RD0`, `WM.RD1`. -/
  | word (w : Word)
  /-- `Ok(bit)` of `EMUX.DRIVE` and `STATUS.RD`. -/
  | bit (b : Bool)
  /-- `OkIgnored(StateViolation)`. -/
  | ignoredStateViolation
  /-- `Err(e)`. -/
  | err (e : OpError)
  deriving DecidableEq, Repr

/-- Why the machine stops with a fault. -/
inductive Fault where
  /-- Raised by `TICK` when the running monitor is to consume a bit under a latched `(mode, subtype) = (1,1)`
  (44_whiteness_modes.md R220, 93 U3). No run reaches it. Safe: the model stops. -/
  | latchedIllegalMode
  deriving DecidableEq, Repr

/-- Why an operation has no meaning. -/
inductive Refusal where
  /-- Raised by `exec` for an instruction that has no meaning yet. Safe. -/
  | notModelled (mnemonic : String)
  /-- Raised by `LFSR.NEW` with width 0 or a tap that is no position of the register: "the model refuses to
  construct such an instance" (40_lfsr.md R110). Safe. -/
  | lfsrOutsideDomain
  /-- Raised by `LFSR.GET(k)` with `k > width`: outside the domain, "the model refuses it" (R112). Safe. -/
  | lfsrGetTooWide
  /-- Raised by `LFSR.SET`, `LFSR.GET`, `LFSR.CLOCK` while no free-standing instance has been created
  (notes/assumptions 6). Safe. -/
  | noLfsrInstance
  /-- Raised by `step` for a raw word whose width is no operand format of the spec, or whose value does not
  fit it (notes/assumptions 5). Safe. -/
  | undecodable (why : Reject)
  deriving DecidableEq, Repr

/-- The whole state. -/
structure State where
  prng : Prng
  emux : Emux
  wm : Monitor
  /-- The free-standing LFSR of the test bench, if one has been created (40_lfsr.md R110). -/
  bench : Option Lfsr
  /-- The result of the last operation (00_scope.md R8); the model's own field. -/
  reply : Reply
  /-- The operations waiting to be applied, oldest first (20_memory.md R61); the model's own field. -/
  inbox : List Request
  /-- How many free samples the clock has drawn; the model's own field. -/
  draws : Nat
  deriving DecidableEq, Repr

/-- The combiner after reset: LFSR states 1, all else 0 (10_state.md R39). -/
def Prng.reset : Prng where
  lfsr0 := ⟨1#47, false⟩
  lfsr1 := ⟨1#53, false⟩
  lfsr2 := ⟨1#59, false⟩
  lfsr3 := ⟨1#61, false⟩
  enable := false
  minValid := 0#3

/-- The mux after reset: all 0 (R39). -/
def Emux.reset : Emux where
  lfsr0 := 0#5
  lfsr1 := 0#6
  lfsr2 := 0#7
  lfsr3 := 0#8
  lastSample := 0#4
  active := false

/-- All counters 0. -/
def Counters.zero : Counters := ⟨0#32, 0#32, 0#32, 0#32⟩

/-- The monitor after reset: Idle, all else 0 (R39). -/
def Monitor.reset : Monitor where
  cfg := ⟨false, .entropyIn, 0#16, 0#32⟩
  l := ⟨0#2, false, false, 0#8, 0#32, .entropyIn⟩
  state := .idle
  remaining := 0#32
  counters := Counters.zero
  prevValid := false
  prevBit := false
  run := 0#32
  window := 0#6
  fill := 0#3
  sum := 0#33
  result := 0#64
  resultValid := false

/-- The machine right after reset (10_state.md R39, 70_reset_and_hazards.md R331); the model's own fields
empty (notes/assumptions 1, 2, 3, 6). -/
def State.reset : State where
  prng := Prng.reset
  emux := Emux.reset
  wm := Monitor.reset
  bench := none
  reply := .ok
  inbox := []
  draws := 0

/-- Replace the combiner. -/
def State.withPrng (s : State) (p : Prng) : State := { s with prng := p }
/-- Replace the mux. -/
def State.withEmux (s : State) (e : Emux) : State := { s with emux := e }
/-- Replace the monitor. -/
def State.withWm (s : State) (m : Monitor) : State := { s with wm := m }
/-- Replace the free-standing LFSR. -/
def State.withBench (s : State) (b : Option Lfsr) : State := { s with bench := b }
/-- Record the result of an operation. -/
def State.withReply (s : State) (r : Reply) : State := { s with reply := r }

/-- The outcome of one operation or step. -/
abbrev Result := Host.Outcome State Fault Refusal

end Sys2Proof.Machine
end

