-- ==== Sys2Proof/Machine/Operands.lean ====
section
/-! DEFINITION. How operands are read: the source bit, the mode-specific readings of the control word's data
field, the canonical form of a tap set, the packing of the result. -/

namespace Sys2Proof.Machine

/-- `source` as written by the host: 0 = EntropyIn, 1 = PrngOut (30_encoding.md R86, D12). -/
def Source.ofBit : Bool → Source
  | false => .entropyIn
  | true => .prngOut

/-- What a control write stores: `control & 0xF0FF` (R82). -/
def storedControl (c : ControlWord) : ControlWord := c &&& 0xF0FF#16

/-- TemplateMatch compares `data[5:2]` with `window[5:2]` (R83, 44_whiteness_modes.md R225). -/
def templateHigh (data : BitVec 8) : BitVec 4 := data.extractLsb' 2 4

/-- MaxExcursion subtype 1: `N = sext_8(data)` as a 33-bit two's-complement number (30_encoding.md R83). -/
def signedThreshold (data : BitVec 8) : BitVec 33 := data.signExtend 33

/-- RunLength compares with the unsigned data field (R83, 44_whiteness_modes.md R224). -/
def runThreshold (data : BitVec 8) : BitVec 32 := data.setWidth 32

/-- The larger of two unsigned counter values. -/
def umax (a b : BitVec 32) : BitVec 32 := if a < b then b else a

/-- The set of tap positions below `width` that a list names, in ascending order: equal sets are equal data
(40_lfsr.md R110). -/
def tapSet (width : Nat) (taps : List Nat) : List Nat :=
  (List.range width).filter (fun p => taps.contains p)

/-- The counters packed by `WM_PACK` (30_encoding.md R89). -/
def wmPack (C : Params) (c : Counters) : BitVec 64 := C.wmPack c.c0 c.c1 c.c2 c.c3

/-- The latch taken at a request (43_whiteness_control.md R182). -/
def MonitorLatch.ofConfig (g : MonitorConfig) : MonitorLatch where
  mode := Control.mode g.control
  subtype := Control.subtype g.control
  onlyValid := Control.onlyValid g.control
  data := Control.data g.control
  runLength := g.runLength
  source := g.source

/-- The control word the latch holds. -/
def MonitorLatch.word (l : MonitorLatch) : ControlWord :=
  Control.pack l.mode l.subtype l.onlyValid l.data

end Sys2Proof.Machine
end

