-- ==== Sys2Proof/Machine/Flags.lean ====
section
/-! DEFINITION. The one-bit outputs of 10_state.md R38 and 45_top_and_interface.md R264: pure functions of
the state, stored nowhere. -/

namespace Sys2Proof.Machine

/-- The acceptance set `{0b001, 0b010}`, a literal constant (41_prng_combiner.md R135). -/
def votes (v : BitVec 3) : Bool := v == 0b001#3 || v == 0b010#3

/-- The low three bits of an LFSR (R134). -/
def Channel.low {w : Nat} (c : Channel w) : BitVec 3 := c.state.extractLsb' 0 3

/-- Does this LFSR vote (R134)? -/
def Channel.votes {w : Nat} (c : Channel w) : Bool := Machine.votes c.low

/-- What a voting LFSR XORs into the output bit: bit 0; a silent one contributes 0 (R134). -/
def Channel.vote {w : Nat} (c : Channel w) : Bool := c.votes && c.low.getLsbD 0

/-- How many LFSRs vote (R134). -/
def Prng.voteCount (p : Prng) : Nat :=
  p.lfsr0.votes.toNat + p.lfsr1.votes.toNat + p.lfsr2.votes.toNat + p.lfsr3.votes.toNat

/-- `prng_bit`: the XOR of the voters' bit 0 (R134, R140). -/
def Prng.bit (p : Prng) : Bool := p.lfsr0.vote ^^ p.lfsr1.vote ^^ p.lfsr2.vote ^^ p.lfsr3.vote

/-- `prng_votes_ok = (votes >= min_valid)` (R134). -/
def Prng.votesOk (p : Prng) : Bool := decide (p.minValid.toNat ≤ p.voteCount)

/-- `prng_valid = prng.enable & votes_ok` (R140, D8). -/
def Prng.valid (p : Prng) : Bool := p.enable && p.votesOk

/-- `prng_data`: the output bit when valid, else zero (30_encoding.md R88, 45_top_and_interface.md R262). -/
def Prng.data (p : Prng) : Word := (BitVec.ofBool (p.valid && p.bit)).setWidth 32

/-- `emux_out`: the XOR of the four observation bits (42_entropy_mux.md R162). -/
def Emux.out (C : Params) (e : Emux) : Bool :=
  e.lfsr0.getLsbD C.emuxObs0.val ^^ e.lfsr1.getLsbD C.emuxObs1.val ^^
    e.lfsr2.getLsbD C.emuxObs2.val ^^ e.lfsr3.getLsbD C.emuxObs3.val

/-- `result_ready` (43_whiteness_control.md R193). -/
def Monitor.resultReady (m : Monitor) : Bool := m.resultValid

/-- `wm_running` (10_state.md R38). -/
def Monitor.running (m : Monitor) : Bool := decide (m.state = .running)

/-- `done`, which a register layer may derive (43_whiteness_control.md R193). -/
def Monitor.done (m : Monitor) : Bool := decide (m.state = .done)

/-- Continuous mode is active: Running with the stored bit set (R190). -/
def Monitor.continuousActive (m : Monitor) : Bool := m.running && m.cfg.continuous

/-- The pair `(valid, b)` the monitor samples, on the state before the tick (R185, D10, D11). -/
def State.monitorInput (C : Params) (s : State) : Bool × Bool :=
  match s.wm.l.source with
  | .entropyIn => (s.emux.active, s.emux.out C)
  | .prngOut => (s.prng.valid, s.prng.bit)

/-- A tick whose selected source is invalid is skipped under `only_valid` (R186, R187). -/
def Monitor.skips (m : Monitor) (valid : Bool) : Bool := m.l.onlyValid && !valid

/-- TemplateMatch: six bits have entered the window and its high four equal `data[5:2]`
(44_whiteness_modes.md R225). -/
def Monitor.templateHit (m : Monitor) : Bool :=
  decide (m.fill = 6#3) && (m.window.extractLsb' 2 4 == templateHigh m.l.data)

end Sys2Proof.Machine
end

