-- ==== Sys2Proof/Machine/Hardware.lean ====
section
/-! DEFINITION. The block's own parameters: the open ones opaque, the others at the spec's defaults
(00_scope.md R5; notes/assumptions 7 and 8). -/

namespace Sys2Proof

/-- The default `WM_PACK`: the low 16 bits of counter `k` in bits `16k+15:16k` (30_encoding.md R89, D22). -/
def packLanes (c0 c1 c2 c3 : BitVec 32) : BitVec 64 :=
  c3.setWidth 16 ++ c2.setWidth 16 ++ c1.setWidth 16 ++ c0.setWidth 16

/-- The block's own parameters. -/
def Config.hw : Params where
  toPrngPolys := @Config.prngPolys PrngPolys.exist
  emuxPoly0 := Config.emuxPoly0
  emuxPoly1 := Config.emuxPoly1
  emuxPoly2 := Config.emuxPoly2
  emuxPoly3 := Config.emuxPoly3
  emuxObs0 := Config.emuxObs0
  emuxObs1 := Config.emuxObs1
  emuxObs2 := Config.emuxObs2
  emuxObs3 := Config.emuxObs3
  emuxActiveFn := Config.emuxActiveFn
  stepsPerTick := 1
  budgetCountsSkipped := false
  wmPack := packLanes

end Sys2Proof
end

