-- ==== Sys2Proof/Machine/Ops.lean ====
section
/-! DEFINITION. The shared operations over registers: the LFSR feedback shift and its iteration, the forcing
write of a combiner LFSR, access to a combiner LFSR by index, and how an operation ends (with a result,
or rejected). -/

namespace Sys2Proof.Machine

/-- `XOR{ s[p] | p in P, p < n }` (00_scope.md R6). The list names a SET: a position counts once however
often it is written. -/
def tapParity {w : Nat} (taps : List Nat) (s : BitVec w) : Nat → Bool
  | 0 => false
  | n + 1 => tapParity taps s n ^^ (taps.contains n && s.getLsbD n)

/-- The feedback bit on the state before the shift (40_lfsr.md R113). -/
def feedback {w : Nat} (taps : List Nat) (s : BitVec w) : Bool := tapParity taps s w

/-- Shift left by one, discard the top bit, insert `b` at bit 0. -/
def shiftIn {w : Nat} (s : BitVec w) (b : Bool) : BitVec w :=
  (s <<< 1) ||| (BitVec.ofBool b).setWidth w

/-- `lfsr_step(s) = ((s << 1) mod 2^W) | fb` (R113). -/
def lfsrStep {w : Nat} (taps : List Nat) (s : BitVec w) : BitVec w := shiftIn s (feedback taps s)

/-- `lfsr_step_inj(s, j) = ((s << 1) mod 2^W) | (fb ^ j)` (R113). -/
def lfsrStepInj {w : Nat} (taps : List Nat) (s : BitVec w) (j : Bool) : BitVec w :=
  shiftIn s (feedback taps s ^^ j)

/-- `lfsr_step^n` (R114). -/
def lfsrClock {w : Nat} (taps : List Nat) : Nat → BitVec w → BitVec w
  | 0, s => s
  | n + 1, s => lfsrClock taps n (lfsrStep taps s)

/-- `fix1` at the write of a combiner LFSR: a zero becomes 1 and sets the sticky recovery bit
(41_prng_combiner.md R131). -/
def Channel.write {w : Nat} (c : Channel w) (v : BitVec w) : Channel w :=
  if v = 0#w then { state := 1#w, recovered := true } else { c with state := v }

/-- `prng_step(i)` (R132). -/
def Channel.step {w : Nat} (taps : List Nat) (c : Channel w) : Channel w :=
  c.write (lfsrStep taps c.state)

/-- `prng_step` applied `n` times (R133). -/
def Channel.clock {w : Nat} (taps : List Nat) : Nat → Channel w → Channel w
  | 0, c => c
  | n + 1, c => Channel.clock taps n (c.step taps)

/-- `PRNG.SET` on one LFSR: mask, then force (R139, D31). -/
def Channel.set {w : Nat} (value : Nat) (c : Channel w) : Channel w := c.write (BitVec.ofNat w value)

/-- `MIX_CLOCKS` (00_scope.md R5). -/
def mixClocks : Nat := 16

/-- `PRNG.MIX` on one LFSR: the chunk into bits 15:0, then 16 steps (R136, D7). -/
def Channel.mix {w : Nat} (taps : List Nat) (chunk : BitVec 16) (c : Channel w) : Channel w :=
  (c.write (c.state ^^^ chunk.setWidth w)).clock taps mixClocks

/-- The positions a tap set of width `w` lists. -/
def positions {w : Nat} (taps : List (Fin w)) : List Nat := taps.map Fin.val

/-- Apply `f` to combiner LFSR `i` with its own polynomial; nothing else changes (10_state.md R22). -/
def Prng.onLfsr (C : Params) (i : Fin 4) (f : {w : Nat} → List Nat → Channel w → Channel w)
    (p : Prng) : Prng :=
  match i with
  | 0 => { p with lfsr0 := f (positions C.prngPoly0) p.lfsr0 }
  | 1 => { p with lfsr1 := f (positions C.prngPoly1) p.lfsr1 }
  | 2 => { p with lfsr2 := f (positions C.prngPoly2) p.lfsr2 }
  | 3 => { p with lfsr3 := f (positions C.prngPoly3) p.lfsr3 }

/-- All four combiner LFSRs advance `n` steps in lock-step (41_prng_combiner.md R133). -/
def Prng.clock (C : Params) (n : Nat) (p : Prng) : Prng :=
  { p with
    lfsr0 := p.lfsr0.clock (positions C.prngPoly0) n
    lfsr1 := p.lfsr1.clock (positions C.prngPoly1) n
    lfsr2 := p.lfsr2.clock (positions C.prngPoly2) n
    lfsr3 := p.lfsr3.clock (positions C.prngPoly3) n }

/-- One seeding iteration on LFSR `i` (R136). -/
def Prng.mix (C : Params) (i : Fin 4) (chunk : BitVec 16) (p : Prng) : Prng :=
  p.onLfsr C i (fun taps c => c.mix taps chunk)

/-- The operation ends with result `r`. -/
def finish (r : Reply) (s : State) : Result := .next (s.withReply r)

/-- `raise E`: the operation is rejected, its result is `Err(E)`, nothing else changes (00_scope.md R7,
60_exceptions.md R306). It is the block's only analogue of taking an exception; there is nothing to return
from (R307). -/
def raise (e : OpError) (s : State) : Result := finish (.err e) s

end Sys2Proof.Machine
end

