-- ==== Sys2Proof/Machine/Combiner.lean ====
section
/-! DEFINITION. The operations of PrngCombiner (41_prng_combiner.md) and of its register-layer side
(45_top_and_interface.md R261, R262). None of the component operations is gated by `enable` (R133, D8). -/

namespace Sys2Proof.Machine

/-- `PRNG.SET` (R139). -/
def execPrngSet (i : Fin 4) (value : Nat) (s : State) : Result :=
  finish .ok (s.withPrng (s.prng.onLfsr Config.hw i (fun _ c => c.set value)))

/-- `PRNG.CLOCK` (R133). -/
def execPrngClock (n : Nat) (s : State) : Result :=
  finish .ok (s.withPrng (s.prng.clock Config.hw n))

/-- `PRNG.GETVALUE`: the ungated pair `(valid, bit)` (R134). -/
def execPrngGetvalue (s : State) : Result := finish (.pair s.prng.votesOk s.prng.bit) s

/-- `PRNG.MIX` (R136). -/
def execPrngMix (i : Fin 4) (chunk : BitVec 16) (s : State) : Result :=
  finish .ok (s.withPrng (s.prng.mix Config.hw i chunk))

/-- The four iterations of seeding LFSR `i`, chunks `4i` to `4i+3` in order (R137). -/
def Prng.seedOne (C : Params) (i : Fin 4) (a b c d : BitVec 16) (p : Prng) : Prng :=
  (((p.mix C i a).mix C i b).mix C i c).mix C i d

/-- `PRNG.SEED`, LFSR 0 first (R137). -/
def Prng.seed (C : Params) (chunks : SeedChunks) (p : Prng) : Prng :=
  (((p.seedOne C 0 chunks[0] chunks[1] chunks[2] chunks[3]).seedOne C 1
    chunks[4] chunks[5] chunks[6] chunks[7]).seedOne C 2
    chunks[8] chunks[9] chunks[10] chunks[11]).seedOne C 3
    chunks[12] chunks[13] chunks[14] chunks[15]

/-- `PRNG.SEED` (R137). -/
def execPrngSeed (chunks : SeedChunks) (s : State) : Result :=
  finish .ok (s.withPrng (s.prng.seed Config.hw chunks))

/-- DOC's `seed(seed_value) = PRNG.SEED(SEED_SOURCE(seed_value))`, a pseudo-operation (R138,
30_encoding.md R94). -/
def seedOperation (seedValue : String) : Instr := .prngSeed (Config.seedSource seedValue)

/-- `PRNG.CFGWR`: `min_valid` above 4 is rejected whole (45_top_and_interface.md R261). -/
def execPrngCfgwr (enable : Bool) (minValid : BitVec 3) (s : State) : Result :=
  if 4#3 < minValid then raise .configurationError s
  else finish .ok (s.withPrng { s.prng with enable := enable, minValid := minValid })

/-- `PRNG.RD`: the data word, zero when not valid; no state changes (R262, 20_memory.md R67). -/
def execPrngRd (s : State) : Result := finish (.word s.prng.data) s

end Sys2Proof.Machine
end

