-- ==== Sys2Proof/Machine/Monitor.lean ====
section
/-! DEFINITION. The control part of the WhitenessMonitor that several operations share: the arm step,
completion, the countdown, and one clock cycle of the monitor under an update rule
(43_whiteness_control.md). -/

namespace Sys2Proof.Machine

/-- The latching part of a request: the configuration is copied and the old result marked stale (R182). -/
def Monitor.latch (m : Monitor) : Monitor :=
  { m with l := MonitorLatch.ofConfig m.cfg, resultValid := false }

/-- Counters and hidden state cleared, the countdown loaded (R182). -/
def Monitor.clearRun (m : Monitor) : Monitor :=
  { m with
    counters := Counters.zero
    prevValid := false
    prevBit := false
    run := 0#32
    window := 0#6
    fill := 0#3
    sum := 0#33
    remaining := m.l.runLength }

/-- The end of the arm step: Running, or Done at once on a zero budget (R182, R183). -/
def Monitor.enterRun (C : Params) (m : Monitor) : Monitor :=
  if m.l.runLength = 0#32 then
    { m with result := wmPack C Counters.zero, resultValid := true, state := .done }
  else { m with state := .running }

/-- `wm_arm(latch)`: true for a request, false for a continuous re-arm (R182). -/
def Monitor.arm (C : Params) (latch : Bool) (m : Monitor) : Monitor :=
  ((if latch then m.latch else m).clearRun).enterRun C

/-- `wm_complete` (R188, R189): the live `continuous` bit decides between re-arm and Done. -/
def Monitor.complete (C : Params) (m : Monitor) : Monitor :=
  let packed := { m with result := wmPack C m.counters, resultValid := true }
  if m.cfg.continuous then packed.arm C false else { packed with state := .done }

/-- `wm.remaining <- wm.remaining - 1`, and completion when it reaches 0 (R186). -/
def Monitor.countDown (C : Params) (m : Monitor) : Monitor :=
  let m' := { m with remaining := m.remaining - 1#32 }
  if m'.remaining = 0#32 then m'.complete C else m'

/-- `wm_update(b)` with the rule of one mode, then the previous bit in every mode (44 R220). -/
def Monitor.update (rule : Bool → Monitor → Monitor) (b : Bool) (m : Monitor) : Monitor :=
  { rule b m with prevValid := true, prevBit := b }

/-- `wm_tick` with the rule of the mode in force (R186, R187). -/
def Monitor.cycle (C : Params) (rule : Bool → Monitor → Monitor) (valid b : Bool) (m : Monitor) : Monitor :=
  if m.running then
    if m.skips valid then (if C.budgetCountsSkipped then m.countDown C else m)
    else (m.update rule b).countDown C
  else m

/-- The control word `(mode, subtype, only_valid, data)` is the one the monitor has latched: the running
monitor reads only the latched copy (10_state.md R30). -/
def Monitor.holds (m : Monitor) (mode : BitVec 2) (subtype onlyValid : Bool) (data : BitVec 8) : Bool :=
  decide (m.l.mode = mode) && (m.l.subtype == subtype) && (m.l.onlyValid == onlyValid) &&
    decide (m.l.data = data)

/-- A pattern as an operation of its own: the monitor's part of one clock cycle. The rule of a pattern
applies while it is the latched one (44 R220); any other pattern leaves the monitor as it is
(notes/assumptions 4). -/
def runPattern (mode : BitVec 2) (subtype onlyValid : Bool) (data : BitVec 8)
    (rule : Bool → Monitor → Monitor) (s : State) : Result :=
  let input := s.monitorInput Config.hw
  finish .ok
    (if s.wm.holds mode subtype onlyValid data then
      s.withWm (s.wm.cycle Config.hw rule input.1 input.2)
    else s)

end Sys2Proof.Machine
end

