-- ==== Sys2Proof/Machine/Control.lean ====
section
/-! DEFINITION. The host's operations on the WhitenessMonitor (43_whiteness_control.md). -/

namespace Sys2Proof.Machine

/-- Step 3 of the control write: the three configuration fields (R181). -/
def Monitor.storeControl (continuous : Bool) (source : Source) (control : ControlWord) (m : Monitor) :
    Monitor :=
  { m with cfg := { m.cfg with
      continuous := continuous, source := source, control := storedControl control } }

/-- `WM.CTLWR`: the two checks, then the stores, then the request (R181, R184, R190; 60_exceptions.md R308). -/
def execWmCtlwr (request continuous source : Bool) (control : ControlWord) (s : State) : Result :=
  if Control.illegal control then raise .invalidTestMode s
  else if s.wm.continuousActive && decide (Source.ofBit source ≠ s.wm.cfg.source) then
    raise .configurationError s
  else
    let m := s.wm.storeControl continuous (Source.ofBit source) control
    if request then
      if m.running then finish .ignoredStateViolation (s.withWm m)
      else finish .ok (s.withWm (m.arm Config.hw true))
    else finish .ok (s.withWm m)

/-- `WM.RLWR`: `wm.cfg.run_length <- value` (R191). -/
def execWmRlwr (value : Word) (s : State) : Result :=
  finish .ok (s.withWm { s.wm with cfg := { s.wm.cfg with runLength := value } })

/-- `WM.RD0`: `wm.result[31:0]` (R192). -/
def execWmRd0 (s : State) : Result := finish (.word (s.wm.result.extractLsb' 0 32)) s

/-- `WM.RD1`: `wm.result[63:32]` (R192). -/
def execWmRd1 (s : State) : Result := finish (.word (s.wm.result.extractLsb' 32 32)) s

/-- `STATUS.RD`: `result_ready` (R193). -/
def execStatusRd (s : State) : Result := finish (.bit s.wm.resultReady) s

end Sys2Proof.Machine
end

