-- ==== Sys2Proof/Machine/Primitive.lean ====
section
/-! DEFINITION. The operations of a free-standing LFSR (40_lfsr.md). They act on the one instance the test
bench holds; before `LFSR.NEW` there is none and they are refused (notes/assumptions 6). -/

namespace Sys2Proof.Machine

/-- Run `f` on the free-standing instance, or refuse when there is none. -/
def onBench (s : State) (f : Lfsr → Result) : Result :=
  match s.bench with
  | some L => f L
  | none => .refused .noLfsrInstance

/-- `LFSR.NEW`: a register with state 0, in place of the instance held before; refused outside its domain
(R110). -/
def execLfsrNew (width : Nat) (taps : List Nat) (s : State) : Result :=
  if lfsrDomain width taps then
    finish .ok (s.withBench (some ⟨width, tapSet width taps, 0#width⟩))
  else .refused .lfsrOutsideDomain

/-- `LFSR.SET`: `state <- value mod 2^width` (R111). -/
def execLfsrSet (value : Nat) (s : State) : Result :=
  onBench s fun L => finish .ok (s.withBench (some { L with state := BitVec.ofNat L.width value }))

/-- `LFSR.GET`: `state mod 2^k`, with `k = width` when omitted; refused for `k > width` (R112). -/
def execLfsrGet (k : Option Nat) (s : State) : Result :=
  onBench s fun L =>
    let k' := k.getD L.width
    if k' ≤ L.width then finish (.value (L.state.toNat % 2 ^ k')) s
    else .refused .lfsrGetTooWide

/-- `LFSR.CLOCK` (R114). -/
def execLfsrClock (n : Nat) (s : State) : Result :=
  onBench s fun L => finish .ok (s.withBench (some { L with state := lfsrClock L.taps n L.state }))

end Sys2Proof.Machine
end

