-- ==== Sys2Proof/Machine/Modes.lean ====
section
/-! DEFINITION. The eight patterns of the control word: the update rule of each mode, applied once per
consumed bit (44_whiteness_modes.md), and the meaning of each pattern. -/

namespace Sys2Proof.Machine

/-- Counter 0 goes up by one. -/
def Monitor.bump0 (m : Monitor) : Monitor :=
  { m with counters := { m.counters with c0 := m.counters.c0 + 1#32 } }

/-- Counter 1 goes up by one. -/
def Monitor.bump1 (m : Monitor) : Monitor :=
  { m with counters := { m.counters with c1 := m.counters.c1 + 1#32 } }

/-- Counter 2 goes up by one. -/
def Monitor.bump2 (m : Monitor) : Monitor :=
  { m with counters := { m.counters with c2 := m.counters.c2 + 1#32 } }

/-- Counter 3 goes up by one. -/
def Monitor.bump3 (m : Monitor) : Monitor :=
  { m with counters := { m.counters with c3 := m.counters.c3 + 1#32 } }

/-- Counter 2 rises to `v` if `v` is larger. -/
def Monitor.raise2 (v : BitVec 32) (m : Monitor) : Monitor :=
  { m with counters := { m.counters with c2 := umax m.counters.c2 v } }

/-- Counter 3 rises to `v` if `v` is larger. -/
def Monitor.raise3 (v : BitVec 32) (m : Monitor) : Monitor :=
  { m with counters := { m.counters with c3 := umax m.counters.c3 v } }

/-- Count, ones (R222). -/
def countOnes (b : Bool) (m : Monitor) : Monitor := if b then m.bump0 else m

/-- Count, toggles: the first bit of a monitor run is none (R221, R223). -/
def countToggles (b : Bool) (m : Monitor) : Monitor :=
  if m.prevValid && (b != m.prevBit) then m.bump0 else m

/-- A completed run of length `wm.run` against the threshold (R224). -/
def Monitor.closeRun (m : Monitor) : Monitor :=
  if m.run = runThreshold m.l.data then m.bump0
  else if runThreshold m.l.data < m.run then m.bump1
  else m

/-- The run goes on, or the old one is closed and a new one starts (R224). -/
def Monitor.trackRun (b : Bool) (m : Monitor) : Monitor :=
  if m.prevValid && (b == m.prevBit) then { m with run := m.run + 1#32 }
  else { (if m.prevValid then m.closeRun else m) with run := 1#32 }

/-- RunLength (R224). -/
def runLength (b : Bool) (m : Monitor) : Monitor :=
  let m' := m.trackRun b
  if b then m'.raise3 (m'.run - 1#32) else m'.raise2 (m'.run - 1#32)

/-- The window takes the bit at bit 0 (R225). -/
def Monitor.shiftWindow (b : Bool) (m : Monitor) : Monitor :=
  { m with
    window := shiftIn m.window b
    fill := BitVec.ofNat 3 (min (m.fill.toNat + 1) 6) }

/-- The counter numbered by the window's two newest bits goes up by one (R225). -/
def Monitor.bumpTemplate (m : Monitor) : Monitor :=
  match m.window.getLsbD 1, m.window.getLsbD 0 with
  | false, false => m.bump0
  | false, true => m.bump1
  | true, false => m.bump2
  | true, true => m.bump3

/-- TemplateMatch, overlapping: every new window is compared (R225, R227). -/
def templateOverlapping (b : Bool) (m : Monitor) : Monitor :=
  let m' := m.shiftWindow b
  if m'.templateHit then m'.bumpTemplate else m'

/-- TemplateMatch, non-overlapping: six further bits after a match (R225, R226). -/
def templateNonOverlapping (b : Bool) (m : Monitor) : Monitor :=
  let m' := m.shiftWindow b
  if m'.templateHit then { m'.bumpTemplate with fill := 0#3 } else m'

/-- The signed sum moves by one: up on a one, down on a zero (R228). -/
def Monitor.movedSum (b : Bool) (m : Monitor) : BitVec 33 := if b then m.sum + 1#33 else m.sum - 1#33

/-- The new sum; a return to zero counts in counter 0 (R228). -/
def Monitor.moveSum (b : Bool) (m : Monitor) : Monitor :=
  if m.movedSum b = 0#33 then { m.bump0 with sum := m.movedSum b }
  else { m with sum := m.movedSum b }

/-- The magnitude of the excursion as a counter value. -/
def Monitor.magnitude (m : Monitor) : BitVec 32 := BitVec.ofNat 32 m.sum.toInt.natAbs

/-- MaxExcursion, maxima (R229). -/
def excursionMax (b : Bool) (m : Monitor) : Monitor :=
  let m' := m.moveSum b
  if 0 < m'.sum.toInt then m'.raise2 m'.magnitude
  else if m'.sum.toInt < 0 then m'.raise3 m'.magnitude
  else m'

/-- MaxExcursion, threshold hits at `N` and at `-N` (R230). -/
def excursionHit (b : Bool) (m : Monitor) : Monitor :=
  let m' := m.moveSum b
  let m2 := if m'.sum = signedThreshold m.l.data then m'.bump2 else m'
  if m'.sum = -(signedThreshold m.l.data) then m2.bump3 else m2

/-- The update rule of the latched `(mode, subtype)` (R220); none for `(1,1)`. -/
def Monitor.latchedRule (m : Monitor) : Option (Bool → Monitor → Monitor) :=
  match m.l.mode.getLsbD 1, m.l.mode.getLsbD 0, m.l.subtype with
  | false, false, false => some countOnes
  | false, false, true => some countToggles
  | false, true, false => some runLength
  | false, true, true => none
  | true, false, false => some templateNonOverlapping
  | true, false, true => some templateOverlapping
  | true, true, false => some excursionMax
  | true, true, true => some excursionHit

/-- `WM.COUNT.ONES` (R222). -/
def execWmCountOnes (onlyValid : Bool) (data : BitVec 8) (s : State) : Result :=
  runPattern 0#2 false onlyValid data countOnes s

/-- `WM.COUNT.TOGGLES` (R223). -/
def execWmCountToggles (onlyValid : Bool) (data : BitVec 8) (s : State) : Result :=
  runPattern 0#2 true onlyValid data countToggles s

/-- `WM.RUNLEN` (R224). -/
def execWmRunlen (onlyValid : Bool) (data : BitVec 8) (s : State) : Result :=
  runPattern 1#2 false onlyValid data runLength s

/-- `WM.ILLEGAL`: the pattern is rejected with `InvalidTestMode` and changes nothing (30_encoding.md R85),
whatever its operands. -/
def execWmIllegal (_onlyValid : Bool) (_data : BitVec 8) (s : State) : Result :=
  raise .invalidTestMode s

/-- `WM.TMATCH.NOVL` (R226). -/
def execWmTmatchNovl (onlyValid : Bool) (data : BitVec 8) (s : State) : Result :=
  runPattern 2#2 false onlyValid data templateNonOverlapping s

/-- `WM.TMATCH.OVL` (R227). -/
def execWmTmatchOvl (onlyValid : Bool) (data : BitVec 8) (s : State) : Result :=
  runPattern 2#2 true onlyValid data templateOverlapping s

/-- `WM.MAXEXC.MAX` (R229). -/
def execWmMaxexcMax (onlyValid : Bool) (data : BitVec 8) (s : State) : Result :=
  runPattern 3#2 false onlyValid data excursionMax s

/-- `WM.MAXEXC.HIT` (R230). -/
def execWmMaxexcHit (onlyValid : Bool) (data : BitVec 8) (s : State) : Result :=
  runPattern 3#2 true onlyValid data excursionHit s

end Sys2Proof.Machine
end

