-- ==== Sys2Proof/Machine/Mux.lean ====
section
/-! DEFINITION. EntropyMux (42_entropy_mux.md). -/

namespace Sys2Proof.Machine

/-- The new mux state of `EMUX.DRIVE(sample)`: bit `i` of `sample ^ last_sample` is XORed into the feedback of
LFSR `i`; every right-hand side reads the old state (R161). -/
def Emux.drive (C : Params) (sample : BitVec 4) (e : Emux) : Emux :=
  let delta := sample ^^^ e.lastSample
  { lfsr0 := lfsrStepInj (positions C.emuxPoly0) e.lfsr0 (delta.getLsbD 0)
    lfsr1 := lfsrStepInj (positions C.emuxPoly1) e.lfsr1 (delta.getLsbD 1)
    lfsr2 := lfsrStepInj (positions C.emuxPoly2) e.lfsr2 (delta.getLsbD 2)
    lfsr3 := lfsrStepInj (positions C.emuxPoly3) e.lfsr3 (delta.getLsbD 3)
    lastSample := sample
    active := C.emuxActiveFn sample e.lastSample }

/-- `EMUX.DRIVE`: the result is `emux_out` of the NEW state (R161, R162). -/
def execEmuxDrive (sample : BitVec 4) (s : State) : Result :=
  let e := s.emux.drive Config.hw sample
  finish (.bit (e.out Config.hw)) (s.withEmux e)

end Sys2Proof.Machine
end

