-- ==== Sys2Proof/Machine/Top.lean ====
section
/-! DEFINITION. The clock tick (45_top_and_interface.md R260) and reset (70_reset_and_hazards.md R330). -/

namespace Sys2Proof.Machine

/-- The monitor's part of a tick: the latched control word's rule on the pre-tick source pair
(43_whiteness_control.md R185, R186). `none` where a bit is to be consumed under a latched `(1,1)`
(44_whiteness_modes.md R220). -/
def State.tickMonitor (C : Params) (s : State) : Option Monitor :=
  let input := s.monitorInput C
  match s.wm.latchedRule with
  | some rule => some (s.wm.cycle C rule input.1 input.2)
  | none =>
    if s.wm.running && !(s.wm.skips input.1) then none
    else some (s.wm.cycle C (fun _ m => m) input.1 input.2)

/-- The combiner's part of a tick: it steps only when enabled (41_prng_combiner.md R141). -/
def Prng.tick (C : Params) (p : Prng) : Prng := if p.enable then p.clock C C.stepsPerTick else p

/-- The three components step at once, each on the pre-tick state (R260, 20_memory.md R62). -/
def State.clockTick (C : Params) (sample : BitVec 4) (s : State) : Option State :=
  (s.tickMonitor C).map fun m =>
    ((s.withWm m).withPrng (s.prng.tick C)).withEmux (s.emux.drive C sample)

/-- `TICK(sample)` (R260). -/
def execTick (sample : BitVec 4) (s : State) : Result :=
  match s.clockTick Config.hw sample with
  | none => .fault .latchedIllegalMode
  | some t => finish .ok t

/-- `RESET`: every item of 10_state.md R20's table takes its reset value (R330). What is not the block's, the
test bench's free-standing LFSR and the waiting operations, stays (notes/assumptions 6). -/
def execReset (s : State) : Result :=
  finish .ok (((s.withPrng Prng.reset).withEmux Emux.reset).withWm Monitor.reset)

end Sys2Proof.Machine
end

