-- ==== Sys2Proof/Machine/Dispatch.lean ====
section
/-! DEFINITION. One arm per instruction. -/

namespace Sys2Proof.Machine

def exec (i : Instr) (s : State) : Host.Outcome State Fault Refusal :=
  match i with
  | .wmCountOnes onlyValid data => Sys2Proof.Machine.execWmCountOnes onlyValid data s
  | .wmCountToggles onlyValid data => Sys2Proof.Machine.execWmCountToggles onlyValid data s
  | .wmRunlen onlyValid data => Sys2Proof.Machine.execWmRunlen onlyValid data s
  | .wmIllegal onlyValid data => Sys2Proof.Machine.execWmIllegal onlyValid data s
  | .wmTmatchNovl onlyValid data => Sys2Proof.Machine.execWmTmatchNovl onlyValid data s
  | .wmTmatchOvl onlyValid data => Sys2Proof.Machine.execWmTmatchOvl onlyValid data s
  | .wmMaxexcMax onlyValid data => Sys2Proof.Machine.execWmMaxexcMax onlyValid data s
  | .wmMaxexcHit onlyValid data => Sys2Proof.Machine.execWmMaxexcHit onlyValid data s
  | .lfsrNew width taps => Sys2Proof.Machine.execLfsrNew width taps s
  | .lfsrSet value => Sys2Proof.Machine.execLfsrSet value s
  | .lfsrGet k => Sys2Proof.Machine.execLfsrGet k s
  | .lfsrClock n => Sys2Proof.Machine.execLfsrClock n s
  | .prngSet index value => Sys2Proof.Machine.execPrngSet index value s
  | .prngClock n => Sys2Proof.Machine.execPrngClock n s
  | .prngGetvalue => Sys2Proof.Machine.execPrngGetvalue s
  | .prngMix index chunk => Sys2Proof.Machine.execPrngMix index chunk s
  | .prngSeed chunks => Sys2Proof.Machine.execPrngSeed chunks s
  | .prngCfgwr enable minValid => Sys2Proof.Machine.execPrngCfgwr enable minValid s
  | .prngRd => Sys2Proof.Machine.execPrngRd s
  | .emuxDrive sample => Sys2Proof.Machine.execEmuxDrive sample s
  | .wmCtlwr request continuous source control => Sys2Proof.Machine.execWmCtlwr request continuous source control s
  | .wmRlwr value => Sys2Proof.Machine.execWmRlwr value s
  | .wmRd0 => Sys2Proof.Machine.execWmRd0 s
  | .wmRd1 => Sys2Proof.Machine.execWmRd1 s
  | .statusRd => Sys2Proof.Machine.execStatusRd s
  | .tick sample => Sys2Proof.Machine.execTick sample s
  | .reset => Sys2Proof.Machine.execReset s

end Sys2Proof.Machine
end

