-- ==== Sys2Proof/Machine/Fetch.lean ====
section
/-! DEFINITION. What the next operation is and how one is placed: the oldest waiting request, or, when none
waits, a clock tick with a free sample (20_memory.md R60, R61; notes/assumptions 1, 2, 14). -/

namespace Sys2Proof.Machine

/-- The next request and the state once it has been taken. -/
def State.fetch (s : State) : Request × State :=
  match s.inbox with
  | r :: rest => (r, { s with inbox := rest })
  | [] => (.named (.tick (Config.freeSample s.draws)), { s with draws := s.draws + 1 })

/-- The monitor executes a control word only when it has latched it and runs: latch the word's fields and,
if need be, enter Running with one bit of budget. -/
def Monitor.loadWord (c : ControlWord) (m : Monitor) : Monitor :=
  { m with
    l := { m.l with
      mode := Control.mode c
      subtype := Control.subtype c
      onlyValid := Control.onlyValid c
      data := Control.data c
      runLength := if m.l.runLength = 0#32 then 1#32 else m.l.runLength }
    state := .running
    remaining := if m.remaining = 0#32 then 1#32 else m.remaining }

/-- Put a raw word in front of the waiting operations; for a legal control word, also what the monitor
needs to execute it. -/
def State.placeWord (s : State) (nbits w : Nat) : State :=
  { s with
    inbox := .word nbits w :: s.inbox
    wm :=
      if decide (nbits = 16) && !(Control.illegal (BitVec.ofNat 16 w)) then
        s.wm.loadWord (BitVec.ofNat 16 w)
      else s.wm }

end Sys2Proof.Machine
end

