-- ==== Sys2Proof/Machine/Step.lean ====
section
/-! DEFINITION. One step: take the next request, decode it, run it. -/

namespace Sys2Proof.Machine

/-- One step of the block. -/
def step (s : State) : Host.Outcome State Fault Refusal :=
  match decode s.fetch.1 with
  | .ok i => exec i s.fetch.2
  | .error why => .refused (.undecodable why)

/-- `s` with an instruction word placed where `step` takes its next operation from. -/
def State.withFetchWord (s : State) (nbits w : Nat) : State := s.placeWord nbits w

end Sys2Proof.Machine
end

