-- ==== Sys2Proof/Safety.lean ====
section
/-! DEFINITION. What claims mean by a good state and a safe outcome: the invariants the spec states for each
component, gathered, and the outcomes in which the block goes on. -/

namespace Sys2Proof.Machine

/-- The combiner's invariants: no LFSR is zero (10_state.md R23) and `min_valid <= 4` (R25). -/
structure Prng.Inv (p : Prng) : Prop where
  nonzero0 : p.lfsr0.state ≠ 0#47
  nonzero1 : p.lfsr1.state ≠ 0#53
  nonzero2 : p.lfsr2.state ≠ 0#59
  nonzero3 : p.lfsr3.state ≠ 0#61
  minValid : p.minValid ≤ 4#3

/-- How many bits the monitor run has consumed. -/
def Monitor.consumed (m : Monitor) : Nat := m.l.runLength.toNat - m.remaining.toNat

/-- The monitor's invariants. -/
structure Monitor.Inv (m : Monitor) : Prop where
  /-- Bits 11:8 of the stored control word are 0 (30_encoding.md R82). -/
  reservedZero : m.cfg.control &&& 0x0F00#16 = 0#16
  /-- The stored control word is a legal pattern (R85). -/
  controlLegal : Control.illegal m.cfg.control = false
  /-- The latched pair is never (1,1) (44_whiteness_modes.md R220). -/
  latchLegal : ¬(m.l.mode = 1#2 ∧ m.l.subtype = true)
  /-- `wm.fill` is at most 6 (10_state.md R20). -/
  fillBound : m.fill ≤ 6#3
  /-- Idle: nothing armed since reset, no result. -/
  idleClear : m.state = .idle → m.remaining = 0#32 ∧ m.l.runLength = 0#32 ∧ m.resultValid = false
  /-- Running: at least one bit of budget is left (43_whiteness_control.md R186). -/
  runningBudget : m.state = .running → m.remaining ≠ 0#32
  /-- Done: the budget is used up and the result is valid (R183, R188). -/
  doneResult : m.state = .done → m.remaining = 0#32 ∧ m.resultValid = true
  /-- The countdown never exceeds the latched budget. -/
  remainingBound : m.remaining ≤ m.l.runLength
  /-- Counters and hidden registers are bounded by the bits consumed, so none overflows
  (44_whiteness_modes.md R231). -/
  c0Bound : m.counters.c0.toNat ≤ m.consumed
  c1Bound : m.counters.c1.toNat ≤ m.consumed
  c2Bound : m.counters.c2.toNat ≤ m.consumed
  c3Bound : m.counters.c3.toNat ≤ m.consumed
  runBound : m.run.toNat ≤ m.consumed
  sumBound : m.sum.toInt.natAbs ≤ m.consumed
  /-- A counter the latched mode does not mention is 0 (R232). -/
  countUnused : m.l.mode = 0#2 → m.counters.c1 = 0#32 ∧ m.counters.c2 = 0#32 ∧ m.counters.c3 = 0#32
  excursionUnused : m.l.mode = 3#2 → m.counters.c1 = 0#32
  /-- The hidden state of the modes not latched is 0 (R220). -/
  runUnused : m.l.mode ≠ 1#2 → m.run = 0#32
  windowUnused : m.l.mode ≠ 2#2 → m.window = 0#6 ∧ m.fill = 0#3
  sumUnused : m.l.mode ≠ 3#2 → m.sum = 0#33

/-- The free-standing LFSR: positive width, taps in ascending order below the width (10_state.md R21). -/
structure Lfsr.Inv (L : Lfsr) : Prop where
  widthPos : 0 < L.width
  tapsLegal : ∀ p ∈ L.taps, p < L.width
  tapsAscending : L.taps.Pairwise (· < ·)

/-- A good state of the block. -/
structure State.Inv (s : State) : Prop where
  prng : s.prng.Inv
  wm : s.wm.Inv
  bench : ∀ L, s.bench = some L → L.Inv

/-- The machine goes on or turns the operation away; it does not stop with a fault. -/
def Safe : Result → Prop
  | .next _ => True
  | .fault _ => False
  | .refused _ => True

end Sys2Proof.Machine
end

