-- ==== Sys2Proof/Certificates/Slice0/Obligations.lean ====
section
/-! DEFINITION. The statements about the model, for the provers, each with the rule of spec/ it formalises.
`Claims` holds the words they are said in: what a register is to be after an operation, written without the
meaning's own functions wherever the rule allows it. -/

namespace Sys2Proof.Claims

open Sys2Proof.Machine

/-- The tap positions of a register whose bit is set: feedback is the parity of their number. -/
def hitTaps {w : Nat} (taps : List Nat) (s : BitVec w) : List Nat :=
  (List.range w).filter fun p => taps.contains p && s.getLsbD p

/-- `c.state` replaced by `v`, zero forced to one with the sticky bit set (41_prng_combiner.md R131). -/
def Forced {w : Nat} (c : Channel w) (v : BitVec w) (d : Channel w) : Prop :=
  d.state = (if v = 0#w then 1#w else v) ∧ (d.recovered = true ↔ c.recovered = true ∨ v = 0#w)

/-- One feedback shift with zero forced to one. -/
def forcedStep {w : Nat} (taps : List Nat) (v : BitVec w) : BitVec w :=
  if lfsrStep taps v = 0#w then 1#w else lfsrStep taps v

/-- `n` forced steps; the sticky bit is set if some step met zero (R132, R133). -/
def Clocked {w : Nat} (taps : List Nat) (n : Nat) (c d : Channel w) : Prop :=
  d.state = (forcedStep taps)^[n] c.state ∧
    (d.recovered = true ↔ c.recovered = true ∨
      ∃ k < n, lfsrStep taps ((forcedStep taps)^[k] c.state) = 0#w)

/-- One seeding iteration: XOR the chunk into bits 15:0, force, then sixteen steps (R136). -/
def Mixed {w : Nat} (taps : List Nat) (chunk : BitVec 16) (c d : Channel w) : Prop :=
  ∃ e : Channel w, Forced c (c.state ^^^ chunk.setWidth w) e ∧ Clocked taps 16 e d

/-- The low three bits of the four combiner LFSRs. -/
def lows (p : Prng) : List (BitVec 3) :=
  [p.lfsr0.state.setWidth 3, p.lfsr1.state.setWidth 3, p.lfsr2.state.setWidth 3,
    p.lfsr3.state.setWidth 3]

/-- At least `min_valid` LFSRs have low bits exactly 001 or 010 (R134, R135). -/
def enoughVotes (p : Prng) : Bool :=
  decide (p.minValid.toNat ≤ ((lows p).filter fun v => v == 1#3 || v == 2#3).length)

/-- The parity of the number of LFSRs whose low three bits are 001 (R134). -/
def voteParity (p : Prng) : Bool := decide (((lows p).filter fun v => v == 1#3).length % 2 = 1)

/-- The PRNG data word: 1 when enabled, enough LFSRs vote and the bit is 1; else 0 (30_encoding.md R88). -/
def readWord (p : Prng) : Word :=
  if p.enable = true ∧ enoughVotes p = true ∧ voteParity p = true then 1#32 else 0#32

/-- The pair the monitor samples (43_whiteness_control.md R185). -/
def sampled (s : State) : Bool × Bool :=
  if s.wm.l.source = .entropyIn then
    (s.emux.active,
      decide (([s.emux.lfsr0.getLsbD Config.emuxObs0.val, s.emux.lfsr1.getLsbD Config.emuxObs1.val,
        s.emux.lfsr2.getLsbD Config.emuxObs2.val,
        s.emux.lfsr3.getLsbD Config.emuxObs3.val].count true) % 2 = 1))
  else (s.prng.enable && enoughVotes s.prng, voteParity s.prng)

/-- The control word `(mode, subtype, only_valid, data)` is latched and the monitor runs. -/
def InForce (s : State) (mode : BitVec 2) (subtype onlyValid : Bool) (data : BitVec 8) : Prop :=
  s.wm.state = .running ∧ s.wm.l.mode = mode ∧ s.wm.l.subtype = subtype ∧
    s.wm.l.onlyValid = onlyValid ∧ s.wm.l.data = data

/-- The cycle is not skipped: every bit counts, or the selected source is valid. -/
def Consumes (s : State) (onlyValid : Bool) : Prop :=
  onlyValid = false ∨ (s.monitorInput Config.hw).1 = true

/-- The bit the monitor samples. -/
def sampledBit (s : State) : Bool := (s.monitorInput Config.hw).2

/-- The larger of two counter values. -/
def larger (a b : BitVec 32) : BitVec 32 := if a.toNat < b.toNat then b else a

/-- The window after a bit: the five newest old bits, then the new one (44_whiteness_modes.md R225). -/
def nextWindow (m : Monitor) (b : Bool) : BitVec 6 := m.window.extractLsb' 0 5 ++ BitVec.ofBool b

/-- The fill after a bit (R225). -/
def nextFill (m : Monitor) : BitVec 3 := if 6 ≤ m.fill.toNat + 1 then 6#3 else m.fill + 1#3

/-- The new window is full and equals template `data[5:2] ++ k` (R225, 30_encoding.md R83). -/
def templateIs (m : Monitor) (b : Bool) (data : BitVec 8) (k : BitVec 2) : Bool :=
  nextFill m == 6#3 && nextWindow m b == (data.extractLsb' 2 4 ++ k : BitVec 6)

/-- The excursion sum after a bit (R228). -/
def nextSum (m : Monitor) (b : Bool) : BitVec 33 := if b then m.sum + 1#33 else m.sum - 1#33

/-- The counters after a template comparison. -/
def templateCounters (m : Monitor) (b : Bool) (data : BitVec 8) : Counters :=
  ⟨if templateIs m b data 0#2 then m.counters.c0 + 1#32 else m.counters.c0,
    if templateIs m b data 1#2 then m.counters.c1 + 1#32 else m.counters.c1,
    if templateIs m b data 2#2 then m.counters.c2 + 1#32 else m.counters.c2,
    if templateIs m b data 3#2 then m.counters.c3 + 1#32 else m.counters.c3⟩

/-- The eight patterns of the control word. -/
def isPattern : Instr → Bool
  | .wmCountOnes _ _ | .wmCountToggles _ _ | .wmRunlen _ _ | .wmIllegal _ _
    | .wmTmatchNovl _ _ | .wmTmatchOvl _ _ | .wmMaxexcMax _ _ | .wmMaxexcHit _ _ => true
  | .lfsrNew _ _ | .lfsrSet _ | .lfsrGet _ | .lfsrClock _ | .prngSet _ _ | .prngClock _
    | .prngGetvalue | .prngMix _ _ | .prngSeed _ | .prngCfgwr _ _ | .prngRd
    | .emuxDrive _ | .wmCtlwr _ _ _ _ | .wmRlwr _ | .wmRd0 | .wmRd1 | .statusRd
    | .tick _ | .reset => false

/-- The operations 10_state.md R20 lists as writers of `prng.` state. -/
def writesPrng : Instr → Bool
  | .prngSet _ _ | .prngClock _ | .prngMix _ _ | .prngSeed _ | .prngCfgwr _ _ | .tick _
    | .reset => true
  | .wmCountOnes _ _ | .wmCountToggles _ _ | .wmRunlen _ _ | .wmIllegal _ _
    | .wmTmatchNovl _ _ | .wmTmatchOvl _ _ | .wmMaxexcMax _ _ | .wmMaxexcHit _ _
    | .lfsrNew _ _ | .lfsrSet _ | .lfsrGet _ | .lfsrClock _ | .prngGetvalue | .prngRd
    | .emuxDrive _ | .wmCtlwr _ _ _ _ | .wmRlwr _ | .wmRd0 | .wmRd1 | .statusRd => false

/-- The operations R20 lists as writers of `emux.` state. -/
def writesEmux : Instr → Bool
  | .emuxDrive _ | .tick _ | .reset => true
  | .wmCountOnes _ _ | .wmCountToggles _ _ | .wmRunlen _ _ | .wmIllegal _ _
    | .wmTmatchNovl _ _ | .wmTmatchOvl _ _ | .wmMaxexcMax _ _ | .wmMaxexcHit _ _
    | .lfsrNew _ _ | .lfsrSet _ | .lfsrGet _ | .lfsrClock _ | .prngSet _ _
    | .prngClock _ | .prngGetvalue | .prngMix _ _ | .prngSeed _ | .prngCfgwr _ _
    | .prngRd | .wmCtlwr _ _ _ _ | .wmRlwr _ | .wmRd0 | .wmRd1 | .statusRd => false

/-- The operations that write `wm.` state: R20's, and the patterns, which are the monitor's part of a tick. -/
def writesWm : Instr → Bool
  | .wmCountOnes _ _ | .wmCountToggles _ _ | .wmRunlen _ _ | .wmIllegal _ _
    | .wmTmatchNovl _ _ | .wmTmatchOvl _ _ | .wmMaxexcMax _ _ | .wmMaxexcHit _ _
    | .wmCtlwr _ _ _ _ | .wmRlwr _ | .tick _ | .reset => true
  | .lfsrNew _ _ | .lfsrSet _ | .lfsrGet _ | .lfsrClock _ | .prngSet _ _ | .prngClock _
    | .prngGetvalue | .prngMix _ _ | .prngSeed _ | .prngCfgwr _ _ | .prngRd
    | .emuxDrive _ | .wmRd0 | .wmRd1 | .statusRd => false

/-- The operations on the free-standing LFSR that change it. -/
def writesBench : Instr → Bool
  | .lfsrNew _ _ | .lfsrSet _ | .lfsrClock _ => true
  | .wmCountOnes _ _ | .wmCountToggles _ _ | .wmRunlen _ _ | .wmIllegal _ _
    | .wmTmatchNovl _ _ | .wmTmatchOvl _ _ | .wmMaxexcMax _ _ | .wmMaxexcHit _ _
    | .lfsrGet _ | .prngSet _ _ | .prngClock _ | .prngGetvalue | .prngMix _ _
    | .prngSeed _ | .prngCfgwr _ _ | .prngRd | .emuxDrive _ | .wmCtlwr _ _ _ _
    | .wmRlwr _ | .wmRd0 | .wmRd1 | .statusRd | .tick _ | .reset => false

/-- The reads of 20_memory.md R67. -/
def isRead : Instr → Bool
  | .lfsrGet _ | .prngGetvalue | .prngRd | .wmRd0 | .wmRd1 | .statusRd => true
  | .wmCountOnes _ _ | .wmCountToggles _ _ | .wmRunlen _ _ | .wmIllegal _ _
    | .wmTmatchNovl _ _ | .wmTmatchOvl _ _ | .wmMaxexcMax _ _ | .wmMaxexcHit _ _
    | .lfsrNew _ _ | .lfsrSet _ | .lfsrClock _ | .prngSet _ _ | .prngClock _
    | .prngMix _ _ | .prngSeed _ | .prngCfgwr _ _ | .emuxDrive _ | .wmCtlwr _ _ _ _
    | .wmRlwr _ | .tick _ | .reset => false

/-- Apply operations one after another, stopping where one gives no next state. -/
def runAll : List Instr → State → Machine.Result
  | [], s => .next s
  | i :: rest, s =>
    match exec i s with
    | .next t => runAll rest t
    | r => r

/-- The sixteen `PRNG.MIX` operations of `PRNG.SEED` (30_encoding.md R94). -/
def mixes (chunks : SeedChunks) : List Instr :=
  [.prngMix 0 chunks[0], .prngMix 0 chunks[1], .prngMix 0 chunks[2], .prngMix 0 chunks[3],
    .prngMix 1 chunks[4], .prngMix 1 chunks[5], .prngMix 1 chunks[6], .prngMix 1 chunks[7],
    .prngMix 2 chunks[8], .prngMix 2 chunks[9], .prngMix 2 chunks[10], .prngMix 2 chunks[11],
    .prngMix 3 chunks[12], .prngMix 3 chunks[13], .prngMix 3 chunks[14], .prngMix 3 chunks[15]]

/-- The monitor after the three stores of a control write (43_whiteness_control.md R181 step 3). -/
def stored (m : Monitor) (continuous source : Bool) (control : ControlWord) : Monitor :=
  { m with cfg := { m.cfg with
      continuous := continuous
      source := if source then .prngOut else .entropyIn
      control := control &&& 0xF0FF#16 } }

/-- A control write is turned away: illegal pattern, or a source change while continuous mode is active. -/
def SourceChange (s : State) (source : Bool) : Prop :=
  s.wm.state = .running ∧ s.wm.cfg.continuous = true ∧
    s.wm.cfg.source ≠ (if source then Source.prngOut else Source.entropyIn)

/-- Bits 15:13 of a control word are 0b011 (30_encoding.md R85). -/
def IllegalWord (control : ControlWord) : Prop := control &&& 0xE000#16 = 0x6000#16

/-- A control write with `request = 1` that arms the monitor: accepted, in Idle or Done (R181, R184). -/
def Arms (i : Instr) (s : State) : Prop :=
  ∃ continuous source control, i = .wmCtlwr true continuous source control ∧ ¬IllegalWord control ∧
    s.wm.state ≠ .running

/-- The monitor consumes a bit in this tick, or in this pattern as an operation of its own
(43_whiteness_control.md R186, R187; the second is the model's, notes/assumptions 4). -/
def TakesBit (i : Instr) (s : State) : Prop :=
  ((∃ x, i = .tick x) ∨ i = decodeControl s.wm.l.word) ∧ s.wm.state = .running ∧
    Consumes s s.wm.l.onlyValid

/-- The bit consumed is the last of a one-shot run (R188). -/
def EndsRun (i : Instr) (s : State) : Prop :=
  TakesBit i s ∧ s.wm.remaining = 1#32 ∧ s.wm.cfg.continuous = false

/-- How many of these ticks, run one after another, consume a bit. -/
def ticksTakingBits : List (BitVec 4) → State → Nat
  | [], _ => 0
  | x :: xs, s =>
    (if s.wm.state = .running ∧ (s.wm.l.onlyValid = false ∨ (s.monitorInput Config.hw).1 = true) then 1
      else 0) +
    match exec (.tick x) s with
    | .next t => ticksTakingBits xs t
    | _ => 0

end Sys2Proof.Claims

open Sys2Proof Sys2Proof.Machine Sys2Proof.Claims

/-! ## Encoding -/

/-- Every instruction comes back from its encoding, with every operand (30_encoding.md R81, R84, R91, R95;
what has no bits is carried by name, notes/assumptions 5). -/
def Obligations.DecodeOfEncodeIsTheInstruction : Prop :=
  ∀ i : Instr, decode (encode i) = .ok i

/-- Re-encoding a control word gives the word with the reserved bits 11:8 cleared (R81, R82). -/
def Obligations.ReencodedControlWordClearsReservedBits : Prop :=
  ∀ c : ControlWord, encodeControl (decodeControl c) = some (c &&& 0xF0FF#16)

/-- The opcode map: `mask = 0xE000` chooses the row, bit 12 and bits 7:0 are its operands (R84). -/
def Obligations.ControlWordFollowsTheOpcodeMap : Prop :=
  ∀ c : ControlWord,
    (c &&& 0xE000#16 = 0x0000#16 ↔ decodeControl c = .wmCountOnes (c.getLsbD 12) (c.setWidth 8)) ∧
    (c &&& 0xE000#16 = 0x2000#16 ↔ decodeControl c = .wmCountToggles (c.getLsbD 12) (c.setWidth 8)) ∧
    (c &&& 0xE000#16 = 0x4000#16 ↔ decodeControl c = .wmRunlen (c.getLsbD 12) (c.setWidth 8)) ∧
    (c &&& 0xE000#16 = 0x6000#16 ↔ decodeControl c = .wmIllegal (c.getLsbD 12) (c.setWidth 8)) ∧
    (c &&& 0xE000#16 = 0x8000#16 ↔ decodeControl c = .wmTmatchNovl (c.getLsbD 12) (c.setWidth 8)) ∧
    (c &&& 0xE000#16 = 0xA000#16 ↔ decodeControl c = .wmTmatchOvl (c.getLsbD 12) (c.setWidth 8)) ∧
    (c &&& 0xE000#16 = 0xC000#16 ↔ decodeControl c = .wmMaxexcMax (c.getLsbD 12) (c.setWidth 8)) ∧
    (c &&& 0xE000#16 = 0xE000#16 ↔ decodeControl c = .wmMaxexcHit (c.getLsbD 12) (c.setWidth 8))

/-- Words written out from the spec's layouts decode to the instructions they stand for: eight control words
(30_encoding.md R81, R84; five of them from 95_test_vectors.md E10), and a raw 32-bit word, which is `WM.RLWR`
by the model's reading of R91 (notes/assumptions 5). -/
def Obligations.SampleWordsDecode : Prop :=
  decode (.word 16 0x8030) = .ok (.wmTmatchNovl false 0x30#8) ∧
  decode (.word 16 0xF0FE) = .ok (.wmMaxexcHit true 0xFE#8) ∧
  decode (.word 16 0x2000) = .ok (.wmCountToggles false 0x00#8) ∧
  decode (.word 16 0x5002) = .ok (.wmRunlen true 0x02#8) ∧
  decode (.word 16 0xB7A5) = .ok (.wmTmatchOvl true 0xA5#8) ∧
  decode (.word 16 0x6000) = .ok (.wmIllegal false 0x00#8) ∧
  decode (.word 16 0x1000) = .ok (.wmCountOnes true 0x00#8) ∧
  decode (.word 16 0xC000) = .ok (.wmMaxexcMax false 0x00#8) ∧
  decode (.word 32 12) = .ok (.wmRlwr 12#32)

/-- A raw word of any other width is rejected by name: the model's reading of 30_encoding.md R80
(notes/assumptions 5). -/
def Obligations.WordsOfOtherWidthsAreRejected : Prop :=
  ∀ nbits w : Nat, nbits ≠ 16 → nbits ≠ 32 → w < 2 ^ nbits →
    decode (.word nbits w) = .error (.noFormat nbits)

/-! ## The step -/

/-- The step takes the oldest waiting request and runs the instruction it decodes to. That operations wait in
an inbox, one to a step, is the model's choice (notes/assumptions 1) for the sequence of operations of
20_memory.md R61. -/
def Obligations.StepRunsTheDecodedRequest : Prop :=
  ∀ (s : State) (r : Request) (rest : List Request) (i : Instr),
    s.inbox = r :: rest → decode r = .ok i → step s = exec i { s with inbox := rest }

/-- When nothing waits the clock ticks with a free sample; a request that decodes to nothing stops by name.
The model's choice (notes/assumptions 1, 2, 5). -/
def Obligations.StepTicksWhenNothingWaitsAndRejectsUndecodable : Prop :=
  (∀ s : State, s.inbox = [] →
    step s = exec (.tick (Config.freeSample s.draws)) { s with draws := s.draws + 1 }) ∧
  (∀ (s : State) (r : Request) (rest : List Request) (why : Reject),
    s.inbox = r :: rest → decode r = .error why → step s = .refused (.undecodable why))

/-! ## Reset and invariants -/

/-- After reset every item of 10_state.md R20's table holds the value of its reset column (R39). -/
def Obligations.ResetStateHoldsTheResetColumn : Prop :=
  State.reset.prng =
    { lfsr0 := ⟨1#47, false⟩, lfsr1 := ⟨1#53, false⟩, lfsr2 := ⟨1#59, false⟩, lfsr3 := ⟨1#61, false⟩,
      enable := false, minValid := 0#3 } ∧
  State.reset.emux =
    { lfsr0 := 0#5, lfsr1 := 0#6, lfsr2 := 0#7, lfsr3 := 0#8, lastSample := 0#4, active := false } ∧
  State.reset.wm =
    { cfg := { continuous := false, source := .entropyIn, control := 0#16, runLength := 0#32 },
      l := { mode := 0#2, subtype := false, onlyValid := false, data := 0#8, runLength := 0#32,
             source := .entropyIn },
      state := .idle, remaining := 0#32, counters := ⟨0#32, 0#32, 0#32, 0#32⟩,
      prevValid := false, prevBit := false, run := 0#32, window := 0#6, fill := 0#3, sum := 0#33,
      result := 0#64, resultValid := false }

/-- `RESET`, in any state whatever, returns `Ok` and gives every item of R20's table its reset value
(70_reset_and_hazards.md R330). -/
def Obligations.ResetOperationRestoresTheResetValues : Prop :=
  ∀ s : State, ∃ t, exec .reset s = .next t ∧ t.prng = State.reset.prng ∧ t.emux = State.reset.emux ∧
    t.wm = State.reset.wm ∧ t.reply = .ok

/-- The invariants of `State.Inv` hold after reset. -/
def Obligations.ResetStateIsGood : Prop := State.reset.Inv

/-- Every step keeps the invariants, from any state that meets them: no combiner LFSR is zero, `min_valid` is
at most 4, no illegal pattern is stored or latched, the countdown and the counters keep their bounds, and
registers a mode does not use stay 0. -/
def Obligations.EveryStepKeepsTheInvariants : Prop :=
  ∀ s t : State, s.Inv → step s = .next t → t.Inv

/-- From a state that meets the invariants no step faults: the latched (1,1) cannot be met
(44_whiteness_modes.md R220). -/
def Obligations.GoodStatesNeverFault : Prop := ∀ s : State, s.Inv → Safe (step s)

/-- Every operation gives a next state but for four named cases: operands outside the domain of `LFSR.NEW` and
`LFSR.GET`, an `LFSR` operation with no instance (notes/assumptions 6), and a consumed bit under a latched
(1,1) (20_memory.md R61, 93 U3, U14). -/
def Obligations.OperationsStopOnlyInTheNamedCases : Prop :=
  ∀ (i : Instr) (s : State),
    (∃ t, exec i s = .next t) ∨
    (∃ width taps, i = .lfsrNew width taps ∧ (width = 0 ∨ ∃ p ∈ taps, width ≤ p) ∧
      exec i s = .refused .lfsrOutsideDomain) ∨
    (((∃ v, i = .lfsrSet v) ∨ (∃ k, i = .lfsrGet k) ∨ (∃ n, i = .lfsrClock n)) ∧ s.bench = none ∧
      exec i s = .refused .noLfsrInstance) ∨
    (∃ k L, i = .lfsrGet (some k) ∧ s.bench = some L ∧ L.width < k ∧
      exec i s = .refused .lfsrGetTooWide) ∨
    (∃ x, i = .tick x ∧ s.wm.state = .running ∧ s.wm.l.mode = 1#2 ∧ s.wm.l.subtype = true ∧
      Consumes s s.wm.l.onlyValid ∧ exec i s = .fault .latchedIllegalMode)

/-! ## The LFSR primitive -/

/-- `LFSR.NEW` gives a register of that width and tap set with state 0, and is refused outside its domain
(40_lfsr.md R110; the one free-standing register is the model's, notes/assumptions 6). -/
def Obligations.LfsrNewCreatesAZeroRegister : Prop :=
  (∀ (width : Nat) (taps : List Nat) (s : State), 0 < width → (∀ p ∈ taps, p < width) →
    ∃ L : Lfsr, exec (.lfsrNew width taps) s = .next { s with bench := some L, reply := .ok } ∧
      L.width = width ∧ L.state.toNat = 0 ∧ ∀ p, p ∈ L.taps ↔ p ∈ taps) ∧
  (∀ (width : Nat) (taps : List Nat) (s : State), width = 0 ∨ (∃ p ∈ taps, width ≤ p) →
    exec (.lfsrNew width taps) s = .refused .lfsrOutsideDomain)

/-- `LFSR.SET` assigns the value modulo `2^width`, zero included; width and taps stay (R111). -/
def Obligations.LfsrSetReducesModuloTheWidth : Prop :=
  ∀ (value : Nat) (s : State) (L : Lfsr), s.bench = some L →
    exec (.lfsrSet value) s =
      .next { s with bench := some { L with state := BitVec.ofNat L.width value }, reply := .ok } ∧
    (BitVec.ofNat L.width value).toNat = value % 2 ^ L.width

/-- `LFSR.GET(k)` returns the low `k` bits, all of them when `k` is omitted, changes nothing, and is refused
for `k > width` (R112). -/
def Obligations.LfsrGetReturnsTheLowBits : Prop :=
  ∀ (s : State) (L : Lfsr), s.bench = some L →
    (∀ k ≤ L.width, exec (.lfsrGet (some k)) s = .next { s with reply := .value (L.state.toNat % 2 ^ k) }) ∧
    exec (.lfsrGet none) s = .next { s with reply := .value L.state.toNat } ∧
    (∀ k, L.width < k → exec (.lfsrGet (some k)) s = .refused .lfsrGetTooWide)

/-- `LFSR.CLOCK(n)` applies the feedback-shift rule `n` times; `clock(0)` is a no-op (R114). -/
def Obligations.LfsrClockIteratesTheStep : Prop :=
  ∀ (n : Nat) (s : State) (L : Lfsr), s.bench = some L →
    exec (.lfsrClock n) s =
      .next { s with bench := some { L with state := (lfsrStep L.taps)^[n] L.state }, reply := .ok }

/-- The feedback shift, bit by bit: every bit moves up by one, the top bit is discarded, and bit 0 is the
XOR of the tap bits of the state before the shift, or that bit XOR the injected one (R113). -/
def Obligations.LfsrStepShiftsAndInsertsTheTapParity : Prop :=
  ∀ (w : Nat) (taps : List Nat) (s : BitVec w) (inject : Bool), 0 < w →
    ((lfsrStep taps s).getLsbD 0 = decide ((hitTaps taps s).length % 2 = 1)) ∧
    ((lfsrStepInj taps s inject).getLsbD 0 = (decide ((hitTaps taps s).length % 2 = 1) ^^ inject)) ∧
    (∀ j, j + 1 < w → (lfsrStep taps s).getLsbD (j + 1) = s.getLsbD j ∧
      (lfsrStepInj taps s inject).getLsbD (j + 1) = s.getLsbD j)

/-- `clock(a); clock(b)` equals `clock(a+b)` from the same starting state (R115). -/
def Obligations.LfsrClockComposes : Prop :=
  ∀ (a b : Nat) (s : State), s.bench ≠ none →
    runAll [.lfsrClock a, .lfsrClock b] s = exec (.lfsrClock (a + b)) s

/-- The all-zero state is a fixed point for every polynomial and every count; an injected one leaves it
(R118). -/
def Obligations.ZeroIsAFixedPointOfClocking : Prop :=
  (∀ (n : Nat) (s : State) (L : Lfsr), s.bench = some L → L.state = 0#L.width →
    exec (.lfsrClock n) s = .next { s with reply := .ok }) ∧
  (∀ (w : Nat) (taps : List Nat), 0 < w → lfsrStepInj taps (0#w) true = 1#w)

/-- With the top bit a tap the step is injective; without it the top bit has no influence, and the state with
only the top bit set steps to zero (R117). -/
def Obligations.StepIsInjectiveExactlyWhenTheTopBitIsATap : Prop :=
  ∀ (w : Nat) (taps : List Nat),
    (w ∈ taps → Function.Injective (lfsrStep taps : BitVec (w + 1) → BitVec (w + 1))) ∧
    (w ∉ taps →
      (∀ s : BitVec (w + 1), lfsrStep taps (s ^^^ BitVec.twoPow (w + 1) w) = lfsrStep taps s) ∧
      lfsrStep taps (BitVec.twoPow (w + 1) w) = 0#(w + 1))

/-! ## PrngCombiner -/

/-- `PRNG.SET(i, value)` writes LFSR `i` with the value modulo its width, zero forced to 1 with the sticky
bit; nothing else changes (41_prng_combiner.md R139). -/
def Obligations.PrngSetMasksAndForces : Prop :=
  ∀ (i : Fin 4) (value : Nat) (s : State), ∃ p : Prng,
    exec (.prngSet i value) s = .next { s with prng := p, reply := .ok } ∧
    (if i = 0 then Forced s.prng.lfsr0 (BitVec.ofNat 47 value) p.lfsr0 else p.lfsr0 = s.prng.lfsr0) ∧
    (if i = 1 then Forced s.prng.lfsr1 (BitVec.ofNat 53 value) p.lfsr1 else p.lfsr1 = s.prng.lfsr1) ∧
    (if i = 2 then Forced s.prng.lfsr2 (BitVec.ofNat 59 value) p.lfsr2 else p.lfsr2 = s.prng.lfsr2) ∧
    (if i = 3 then Forced s.prng.lfsr3 (BitVec.ofNat 61 value) p.lfsr3 else p.lfsr3 = s.prng.lfsr3) ∧
    p.enable = s.prng.enable ∧ p.minValid = s.prng.minValid

/-- `PRNG.CLOCK(n)` advances all four LFSRs by `n` forced steps whatever `enable` holds (R132, R133). -/
def Obligations.PrngClockAdvancesAllFour : Prop :=
  ∀ (n : Nat) (s : State), ∃ p : Prng,
    exec (.prngClock n) s = .next { s with prng := p, reply := .ok } ∧
    Clocked (positions Config.hw.prngPoly0) n s.prng.lfsr0 p.lfsr0 ∧
    Clocked (positions Config.hw.prngPoly1) n s.prng.lfsr1 p.lfsr1 ∧
    Clocked (positions Config.hw.prngPoly2) n s.prng.lfsr2 p.lfsr2 ∧
    Clocked (positions Config.hw.prngPoly3) n s.prng.lfsr3 p.lfsr3 ∧
    p.enable = s.prng.enable ∧ p.minValid = s.prng.minValid

/-- `PRNG.GETVALUE` returns whether at least `min_valid` LFSRs vote, and the parity of those at 001; it is
not gated by `enable` and changes nothing (R134, R135). -/
def Obligations.PrngGetvalueCountsTheVotes : Prop :=
  ∀ s : State, exec .prngGetvalue s =
    .next { s with reply := .pair (enoughVotes s.prng) (voteParity s.prng) }

/-- `PRNG.MIX(i, chunk)` XORs the chunk into bits 15:0 of LFSR `i`, forces, and steps it sixteen times; only
LFSR `i` changes (R136). -/
def Obligations.PrngMixMixesThenClocks : Prop :=
  ∀ (i : Fin 4) (chunk : BitVec 16) (s : State), ∃ p : Prng,
    exec (.prngMix i chunk) s = .next { s with prng := p, reply := .ok } ∧
    (if i = 0 then Mixed (positions Config.hw.prngPoly0) chunk s.prng.lfsr0 p.lfsr0
      else p.lfsr0 = s.prng.lfsr0) ∧
    (if i = 1 then Mixed (positions Config.hw.prngPoly1) chunk s.prng.lfsr1 p.lfsr1
      else p.lfsr1 = s.prng.lfsr1) ∧
    (if i = 2 then Mixed (positions Config.hw.prngPoly2) chunk s.prng.lfsr2 p.lfsr2
      else p.lfsr2 = s.prng.lfsr2) ∧
    (if i = 3 then Mixed (positions Config.hw.prngPoly3) chunk s.prng.lfsr3 p.lfsr3
      else p.lfsr3 = s.prng.lfsr3) ∧
    p.enable = s.prng.enable ∧ p.minValid = s.prng.minValid

/-- `PRNG.SEED` completes, and is the sixteen `PRNG.MIX` operations in order, LFSR 0 first (R137,
30_encoding.md R94). -/
def Obligations.PrngSeedIsSixteenMixes : Prop :=
  ∀ (c : SeedChunks) (s : State), ∃ p : Prng,
    exec (.prngSeed c) s = .next { s with prng := p, reply := .ok } ∧
    runAll (mixes c) s = .next { s with prng := p, reply := .ok }

/-- `PRNG.CFGWR` writes both fields for `min_valid` 0 to 4, and for 5 to 7 is rejected with
`ConfigurationError` and writes neither (45_top_and_interface.md R261). -/
def Obligations.PrngConfigWriteChecksMinValid : Prop :=
  ∀ (enable : Bool) (minValid : BitVec 3) (s : State),
    (minValid.toNat ≤ 4 → exec (.prngCfgwr enable minValid) s =
      .next { s with prng := { s.prng with enable := enable, minValid := minValid }, reply := .ok }) ∧
    (4 < minValid.toNat → exec (.prngCfgwr enable minValid) s =
      .next { s with reply := .err .configurationError })

/-- `PRNG.RD` returns the output bit zero-extended when enabled and enough LFSRs vote, else 0, and changes
nothing (R262). -/
def Obligations.PrngReadIsZeroUnlessValid : Prop :=
  ∀ s : State, exec .prngRd s = .next { s with reply := .word (readWord s.prng) }

/-- A recovery bit once set stays set until reset (10_state.md R24). -/
def Obligations.RecoveryBitsAreSticky : Prop :=
  ∀ (i : Instr) (s t : State), i ≠ .reset → exec i s = .next t →
    (s.prng.lfsr0.recovered = true → t.prng.lfsr0.recovered = true) ∧
    (s.prng.lfsr1.recovered = true → t.prng.lfsr1.recovered = true) ∧
    (s.prng.lfsr2.recovered = true → t.prng.lfsr2.recovered = true) ∧
    (s.prng.lfsr3.recovered = true → t.prng.lfsr3.recovered = true)

/-- The non-zero invariant of the combiner: no operation leaves an LFSR at zero that was not (10_state.md
R23). -/
def Obligations.CombinerIsNeverZero : Prop :=
  ∀ (i : Instr) (s t : State), exec i s = .next t →
    (s.prng.lfsr0.state ≠ 0#47 → t.prng.lfsr0.state ≠ 0#47) ∧
    (s.prng.lfsr1.state ≠ 0#53 → t.prng.lfsr1.state ≠ 0#53) ∧
    (s.prng.lfsr2.state ≠ 0#59 → t.prng.lfsr2.state ≠ 0#59) ∧
    (s.prng.lfsr3.state ≠ 0#61 → t.prng.lfsr3.state ≠ 0#61)

/-! ## EntropyMux -/

/-- `EMUX.DRIVE(sample)`: each LFSR steps with its bit of `sample ^ last_sample` injected, the sample and the
active flag are recorded, and the result is the XOR of the observation bits of the new states
(42_entropy_mux.md R161, R162). -/
def Obligations.EmuxDriveInjectsTheChange : Prop :=
  ∀ (sample : BitVec 4) (s : State), ∃ e : Emux, ∃ out : Bool,
    exec (.emuxDrive sample) s = .next { s with emux := e, reply := .bit out } ∧
    e.lfsr0 = lfsrStepInj (positions Config.emuxPoly0) s.emux.lfsr0
      (sample.getLsbD 0 ^^ s.emux.lastSample.getLsbD 0) ∧
    e.lfsr1 = lfsrStepInj (positions Config.emuxPoly1) s.emux.lfsr1
      (sample.getLsbD 1 ^^ s.emux.lastSample.getLsbD 1) ∧
    e.lfsr2 = lfsrStepInj (positions Config.emuxPoly2) s.emux.lfsr2
      (sample.getLsbD 2 ^^ s.emux.lastSample.getLsbD 2) ∧
    e.lfsr3 = lfsrStepInj (positions Config.emuxPoly3) s.emux.lfsr3
      (sample.getLsbD 3 ^^ s.emux.lastSample.getLsbD 3) ∧
    e.lastSample = sample ∧ e.active = Config.emuxActiveFn sample s.emux.lastSample ∧
    (out = true ↔ ([e.lfsr0.getLsbD Config.emuxObs0.val, e.lfsr1.getLsbD Config.emuxObs1.val,
      e.lfsr2.getLsbD Config.emuxObs2.val, e.lfsr3.getLsbD Config.emuxObs3.val].count true) % 2 = 1)

/-! ## The clock tick -/

/-- `TICK(sample)`: the monitor executes its latched control word, the combiner clocks one step if enabled,
the mux is driven with the sample, all three on the pre-tick state (45_top_and_interface.md R260,
20_memory.md R62; the monitor's part said through the pattern, notes/assumptions 4; one step a tick is the
spec's default, notes/assumptions 8). -/
def Obligations.TickStepsAllComponentsAtOnce : Prop :=
  ∀ (x : BitVec 4) (s : State), ¬(s.wm.l.mode = 1#2 ∧ s.wm.l.subtype = true) →
    ∃ a b c : State,
      exec (decodeControl s.wm.l.word) s = .next a ∧
      exec (.prngClock 1) s = .next b ∧
      exec (.emuxDrive x) s = .next c ∧
      exec (.tick x) s = .next { s with
        wm := a.wm, prng := if s.prng.enable then b.prng else s.prng, emux := c.emux, reply := .ok }

/-- A tick that is to consume a bit under a latched (1,1) faults rather than pick a behaviour
(44_whiteness_modes.md R220); no good state meets it (notes/assumptions 10). -/
def Obligations.LatchedIllegalPatternFaults : Prop :=
  ∀ (x : BitVec 4) (s : State), s.wm.state = .running → s.wm.l.mode = 1#2 → s.wm.l.subtype = true →
    Consumes s s.wm.l.onlyValid → exec (.tick x) s = .fault .latchedIllegalMode

/-- Isolation in a tick: the combiner's next state depends on the combiner alone, the mux's on the mux and
the sample alone (10_state.md R40). -/
def Obligations.TickKeepsComponentsApart : Prop :=
  ∀ (x y : BitVec 4) (s s' t t' : State), exec (.tick x) s = .next t → exec (.tick y) s' = .next t' →
    (s.prng = s'.prng → t.prng = t'.prng) ∧ (x = y → s.emux = s'.emux → t.emux = t'.emux)

/-- The pair the monitor samples: the mux's flag and output, or the gated validity and the raw combined bit
(43_whiteness_control.md R185). -/
def Obligations.MonitorSamplesTheLatchedSource : Prop :=
  ∀ s : State, s.monitorInput Config.hw = sampled s

/-! ## WhitenessMonitor: the host's operations -/

/-- A control write with bits 15:13 = 0b011 returns `InvalidTestMode` and changes nothing, before any other
check (30_encoding.md R85). -/
def Obligations.ControlWriteRejectsTheIllegalPattern : Prop :=
  ∀ (request continuous source : Bool) (control : ControlWord) (s : State), IllegalWord control →
    exec (.wmCtlwr request continuous source control) s = .next { s with reply := .err .invalidTestMode }

/-- A control write that changes the source while continuous mode is active returns `ConfigurationError` and
changes nothing (43_whiteness_control.md R190). -/
def Obligations.ControlWriteRejectsASourceChange : Prop :=
  ∀ (request continuous source : Bool) (control : ControlWord) (s : State), ¬IllegalWord control →
    SourceChange s source →
    exec (.wmCtlwr request continuous source control) s =
      .next { s with reply := .err .configurationError }

/-- A request while Running is ignored with `StateViolation`: only the three configuration fields are stored
(R184). -/
def Obligations.RequestWhileRunningIsIgnored : Prop :=
  ∀ (continuous source : Bool) (control : ControlWord) (s : State), ¬IllegalWord control →
    ¬SourceChange s source → s.wm.state = .running →
    exec (.wmCtlwr true continuous source control) s =
      .next { s with wm := stored s.wm continuous source control, reply := .ignoredStateViolation }

/-- A control write without request stores `continuous`, `source` and `control & 0xF0FF` and nothing else
(R181). -/
def Obligations.ControlWriteStoresTheConfiguration : Prop :=
  ∀ (continuous source : Bool) (control : ControlWord) (s : State), ¬IllegalWord control →
    ¬SourceChange s source →
    exec (.wmCtlwr false continuous source control) s =
      .next { s with wm := stored s.wm continuous source control, reply := .ok }

/-- A request in Idle or Done with a budget stores, latches, clears counters and hidden state, loads the
countdown, marks the old result stale and enters Running (R181, R182). -/
def Obligations.RequestArmsTheMonitor : Prop :=
  ∀ (continuous source : Bool) (control : ControlWord) (s : State), ¬IllegalWord control →
    s.wm.state ≠ .running → s.wm.cfg.runLength ≠ 0#32 →
    exec (.wmCtlwr true continuous source control) s =
      .next { s with
        wm :=
          { cfg := (stored s.wm continuous source control).cfg
            l := { mode := control.extractLsb' 14 2, subtype := control.getLsbD 13,
                   onlyValid := control.getLsbD 12, data := control.setWidth 8,
                   runLength := s.wm.cfg.runLength,
                   source := if source then .prngOut else .entropyIn }
            state := .running
            remaining := s.wm.cfg.runLength
            counters := ⟨0#32, 0#32, 0#32, 0#32⟩
            prevValid := false
            prevBit := false
            run := 0#32
            window := 0#6
            fill := 0#3
            sum := 0#33
            result := s.wm.result
            resultValid := false }
        reply := .ok }

/-- A request with budget 0 completes at once: result 0, valid, Done, no bit consumed, and no re-arm whatever
`continuous` says (R183). -/
def Obligations.RequestWithZeroBudgetCompletesAtOnce : Prop :=
  ∀ (continuous source : Bool) (control : ControlWord) (s : State), ¬IllegalWord control →
    s.wm.state ≠ .running → s.wm.cfg.runLength = 0#32 →
    exec (.wmCtlwr true continuous source control) s =
      .next { s with
        wm :=
          { cfg := (stored s.wm continuous source control).cfg
            l := { mode := control.extractLsb' 14 2, subtype := control.getLsbD 13,
                   onlyValid := control.getLsbD 12, data := control.setWidth 8, runLength := 0#32,
                   source := if source then .prngOut else .entropyIn }
            state := .done
            remaining := 0#32
            counters := ⟨0#32, 0#32, 0#32, 0#32⟩
            prevValid := false
            prevBit := false
            run := 0#32
            window := 0#6
            fill := 0#3
            sum := 0#33
            result := 0#64
            resultValid := true }
        reply := .ok }

/-- `WM.RLWR` writes `wm.cfg.run_length` and nothing else, in every state (R191). -/
def Obligations.RunLengthWriteStoresTheBudget : Prop :=
  ∀ (value : Word) (s : State), exec (.wmRlwr value) s =
    .next { s with wm := { s.wm with cfg := { s.wm.cfg with runLength := value } }, reply := .ok }

/-- `WM.RD0` and `WM.RD1` return the low and the high word of the result register, `STATUS.RD` its valid
flag, in every state, and change nothing (R192, R193). -/
def Obligations.MonitorReadsReturnTheResult : Prop :=
  ∀ s : State,
    exec .wmRd0 s = .next { s with reply := .word (s.wm.result.setWidth 32) } ∧
    exec .wmRd1 s = .next { s with reply := .word ((s.wm.result >>> 32).setWidth 32) } ∧
    exec .statusRd s = .next { s with reply := .bit s.wm.resultValid }

/-- The reads change no state but for the result they return, and repeating one returns the same value
(20_memory.md R67). -/
def Obligations.ReadsHaveNoSideEffects : Prop :=
  ∀ (i : Instr) (s t : State), isRead i = true → exec i s = .next t →
    t = { s with reply := t.reply } ∧ exec i t = .next t

/-- The packed result: lane `k` is the low 16 bits of counter `k` (30_encoding.md R89). -/
def Obligations.ResultPacksSixteenBitLanes : Prop :=
  ∀ c : Counters,
    (wmPack Config.hw c).toNat = c.c0.toNat % 2 ^ 16 + c.c1.toNat % 2 ^ 16 * 2 ^ 16 +
      c.c2.toNat % 2 ^ 16 * 2 ^ 32 + c.c3.toNat % 2 ^ 16 * 2 ^ 48

/-! ## WhitenessMonitor: the update rules

Each for a pattern in force whose cycle is not skipped, with `b` the sampled bit: the state after is the
one the rule gives, then the countdown of R186. -/

/-- Count, ones: counter 0 goes up on a one (44_whiteness_modes.md R222; the pattern as an
operation of its own is the model's, notes/assumptions 4). -/
def Obligations.CountOnesCountsOnes : Prop :=
  ∀ (v : Bool) (d : BitVec 8) (s : State), InForce s 0#2 false v d → Consumes s v →
    exec (.wmCountOnes v d) s = .next { s with
      wm := Monitor.countDown Config.hw { s.wm with
        counters := { s.wm.counters with
          c0 := if sampledBit s then s.wm.counters.c0 + 1#32 else s.wm.counters.c0 }
        prevValid := true, prevBit := sampledBit s }
      reply := .ok }

/-- Count, toggles: counter 0 goes up when the bit differs from the previous one; the first bit of a monitor
run is no toggle (R223, R221; notes/assumptions 4). -/
def Obligations.CountTogglesCountsTransitions : Prop :=
  ∀ (v : Bool) (d : BitVec 8) (s : State), InForce s 0#2 true v d → Consumes s v →
    exec (.wmCountToggles v d) s = .next { s with
      wm := Monitor.countDown Config.hw { s.wm with
        counters := { s.wm.counters with
          c0 := if s.wm.prevValid = true ∧ sampledBit s ≠ s.wm.prevBit then s.wm.counters.c0 + 1#32
            else s.wm.counters.c0 }
        prevValid := true, prevBit := sampledBit s }
      reply := .ok }

/-- RunLength: a completed run against the unsigned data, and the longest runs less one with the new run
(R224; notes/assumptions 4). -/
def Obligations.RunLengthTracksRuns : Prop :=
  ∀ (v : Bool) (d : BitVec 8) (s : State), InForce s 1#2 false v d → Consumes s v →
    let b := sampledBit s
    let ends := s.wm.prevValid = true ∧ b ≠ s.wm.prevBit
    let run := if s.wm.prevValid = true ∧ b = s.wm.prevBit then s.wm.run + 1#32 else 1#32
    exec (.wmRunlen v d) s = .next { s with
      wm := Monitor.countDown Config.hw { s.wm with
        counters :=
          { c0 := if ends ∧ s.wm.run.toNat = d.toNat then s.wm.counters.c0 + 1#32
              else s.wm.counters.c0
            c1 := if ends ∧ d.toNat < s.wm.run.toNat then s.wm.counters.c1 + 1#32
              else s.wm.counters.c1
            c2 := if b then s.wm.counters.c2 else larger s.wm.counters.c2 (run - 1#32)
            c3 := if b then larger s.wm.counters.c3 (run - 1#32) else s.wm.counters.c3 }
        run := run, prevValid := true, prevBit := b }
      reply := .ok }

/-- TemplateMatch, non-overlapping: the counter of the matching template goes up and six further bits must
come before the next comparison (R225, R226; notes/assumptions 4). -/
def Obligations.NonOverlappingMatchRestartsTheWindow : Prop :=
  ∀ (v : Bool) (d : BitVec 8) (s : State), InForce s 2#2 false v d → Consumes s v →
    ∃ fill : BitVec 3,
      ((∃ k, templateIs s.wm (sampledBit s) d k = true) → fill = 0#3) ∧
      ((¬∃ k, templateIs s.wm (sampledBit s) d k = true) → fill = nextFill s.wm) ∧
      exec (.wmTmatchNovl v d) s = .next { s with
        wm := Monitor.countDown Config.hw { s.wm with
          counters := templateCounters s.wm (sampledBit s) d
          window := nextWindow s.wm (sampledBit s), fill := fill
          prevValid := true, prevBit := sampledBit s }
        reply := .ok }

/-- TemplateMatch, overlapping: every new full window is compared (R225, R227;
notes/assumptions 4). -/
def Obligations.OverlappingMatchComparesEveryWindow : Prop :=
  ∀ (v : Bool) (d : BitVec 8) (s : State), InForce s 2#2 true v d → Consumes s v →
    exec (.wmTmatchOvl v d) s = .next { s with
      wm := Monitor.countDown Config.hw { s.wm with
        counters := templateCounters s.wm (sampledBit s) d
        window := nextWindow s.wm (sampledBit s), fill := nextFill s.wm
        prevValid := true, prevBit := sampledBit s }
      reply := .ok }

/-- MaxExcursion, maxima: a return of the sum to zero counts in counter 0, counters 2 and 3 hold the largest
positive and negative magnitude (R228, R229; notes/assumptions 4). -/
def Obligations.ExcursionMaximaAreTracked : Prop :=
  ∀ (v : Bool) (d : BitVec 8) (s : State), InForce s 3#2 false v d → Consumes s v →
    let sum := nextSum s.wm (sampledBit s)
    exec (.wmMaxexcMax v d) s = .next { s with
      wm := Monitor.countDown Config.hw { s.wm with
        counters := { s.wm.counters with
          c0 := if sum = 0#33 then s.wm.counters.c0 + 1#32 else s.wm.counters.c0
          c2 := if 0 < sum.toInt then larger s.wm.counters.c2 (BitVec.ofInt 32 sum.toInt)
            else s.wm.counters.c2
          c3 := if sum.toInt < 0 then larger s.wm.counters.c3 (BitVec.ofInt 32 (-sum.toInt))
            else s.wm.counters.c3 }
        sum := sum, prevValid := true, prevBit := sampledBit s }
      reply := .ok }

/-- MaxExcursion, hits: counters 2 and 3 count the sum reaching exactly `N` and `-N`, `N` the signed data
(R228, R230; notes/assumptions 4). -/
def Obligations.ExcursionHitsAreCounted : Prop :=
  ∀ (v : Bool) (d : BitVec 8) (s : State), InForce s 3#2 true v d → Consumes s v →
    let sum := nextSum s.wm (sampledBit s)
    exec (.wmMaxexcHit v d) s = .next { s with
      wm := Monitor.countDown Config.hw { s.wm with
        counters := { s.wm.counters with
          c0 := if sum = 0#33 then s.wm.counters.c0 + 1#32 else s.wm.counters.c0
          c2 := if sum.toInt = d.toInt then s.wm.counters.c2 + 1#32 else s.wm.counters.c2
          c3 := if sum.toInt = -d.toInt then s.wm.counters.c3 + 1#32 else s.wm.counters.c3 }
        sum := sum, prevValid := true, prevBit := sampledBit s }
      reply := .ok }

/-- A pattern changes nothing but the result when it is not the latched one, when the monitor does not run, or
when its cycle is skipped for want of a valid bit (43_whiteness_control.md R186, R187; the first by
notes/assumptions 4). -/
def Obligations.PatternOutOfForceOrSkippedChangesNothing : Prop :=
  ∀ (c : ControlWord) (s : State), ¬IllegalWord c →
    (s.wm.state ≠ .running ∨ s.wm.l.word ≠ c &&& 0xF0FF#16 ∨
      (s.wm.l.onlyValid = true ∧ (s.monitorInput Config.hw).1 = false)) →
    exec (decodeControl c) s = .next { s with reply := .ok }

/-- `WM.ILLEGAL` is rejected with `InvalidTestMode` and changes nothing (30_encoding.md R85;
as an operation of its own, notes/assumptions 4). -/
def Obligations.IllegalPatternIsRejected : Prop :=
  ∀ (v : Bool) (d : BitVec 8) (s : State),
    exec (.wmIllegal v d) s = .next { s with reply := .err .invalidTestMode }

/-- The countdown: one less; at 0 the counters are packed and either the monitor is Done or, in continuous
mode, re-armed at once with the same latched configuration (43_whiteness_control.md R186, R188, R189). -/
def Obligations.CountdownCompletesAtZero : Prop :=
  ∀ m : Monitor,
    (m.remaining ≠ 1#32 → m.countDown Config.hw = { m with remaining := m.remaining - 1#32 }) ∧
    (m.remaining = 1#32 → m.cfg.continuous = false →
      m.countDown Config.hw = { m with
        remaining := 0#32, result := wmPack Config.hw m.counters, resultValid := true, state := .done }) ∧
    (m.remaining = 1#32 → m.cfg.continuous = true → m.l.runLength ≠ 0#32 →
      m.countDown Config.hw = { m with
        remaining := m.l.runLength, result := wmPack Config.hw m.counters, resultValid := true, state := .running
        counters := ⟨0#32, 0#32, 0#32, 0#32⟩, prevValid := false, prevBit := false, run := 0#32,
        window := 0#6, fill := 0#3, sum := 0#33 })

/-! ## Whole-machine rules -/

/-- The complete transition table of `wm.state` (43_whiteness_control.md R180): reset goes to Idle, an accepted
request in Idle or Done to Running or, with budget 0, to Done, the last bit of a one-shot run to Done, and
every other operation keeps the state. That a bare pattern takes a bit as well as a tick is the model's choice
(notes/assumptions 4). -/
def Obligations.MonitorTransitionsFollowTheTable : Prop :=
  ∀ (i : Instr) (s t : State), s.Inv → exec i s = .next t →
    (i = .reset → t.wm.state = .idle) ∧
    (Arms i s → t.wm.state = if s.wm.cfg.runLength = 0#32 then .done else .running) ∧
    (EndsRun i s → t.wm.state = .done) ∧
    (i ≠ .reset → ¬Arms i s → ¬EndsRun i s → t.wm.state = s.wm.state)

/-- While Running nothing but reset changes the latched registers, a continuous re-arm included
(10_state.md R30, 43_whiteness_control.md R189). -/
def Obligations.RunningMonitorKeepsItsLatch : Prop :=
  ∀ (i : Instr) (s t : State), s.wm.state = .running → i ≠ .reset → exec i s = .next t →
    t.wm.l = s.wm.l

/-- Counters are only mutated while Running, but for the clearing at the arm step and at reset
(10_state.md R33). -/
def Obligations.CountersChangeOnlyWhileRunning : Prop :=
  ∀ (i : Instr) (s t : State), s.wm.state ≠ .running → exec i s = .next t →
    t.wm.counters = s.wm.counters ∨ t.wm.counters = ⟨0#32, 0#32, 0#32, 0#32⟩ ∧
      (i = .reset ∨ ∃ continuous source control, i = .wmCtlwr true continuous source control)

/-- Write ownership: an operation of one component writes only that component's state, while `TICK` and
`RESET` apply every component's own step (10_state.md R20, R40). The model's own clauses: no operation writes
the inbox or the draw counter (notes/assumptions 1, 2), and every operation but `LFSR.NEW`, `LFSR.SET` and
`LFSR.CLOCK`, so `RESET` too, leaves the free-standing LFSR alone (notes/assumptions 6). -/
def Obligations.OperationsWriteOnlyTheirComponent : Prop :=
  ∀ (i : Instr) (s t : State), exec i s = .next t →
    (writesPrng i = false → t.prng = s.prng) ∧ (writesEmux i = false → t.emux = s.emux) ∧
    (writesWm i = false → t.wm = s.wm) ∧ (writesBench i = false → t.bench = s.bench) ∧
    t.inbox = s.inbox ∧ t.draws = s.draws

/-- A one-shot monitor run consumes exactly its remaining budget, one bit in each tick that is not skipped,
whatever the samples, is then Done with the packed result, and stays so; with `only_valid = 0` no tick is
skipped, so the run takes exactly as many ticks (43_whiteness_control.md R194; that skipped ticks do not count
is the spec's default, notes/assumptions 8). -/
def Obligations.MonitorRunTakesExactlyItsBudgetInTicks : Prop :=
  ∀ (xs : List (BitVec 4)) (s : State), s.wm.state = .running →
    ¬(s.wm.l.mode = 1#2 ∧ s.wm.l.subtype = true) → s.wm.cfg.continuous = false →
    s.wm.remaining ≠ 0#32 →
    ∃ t, runAll (xs.map Instr.tick) s = .next t ∧
      ((t.wm.state = .running ∧ t.wm.remaining ≠ 0#32 ∧ t.wm.resultValid = s.wm.resultValid ∧
          t.wm.remaining.toNat + ticksTakingBits xs s = s.wm.remaining.toNat) ∨
        (t.wm.state = .done ∧ t.wm.remaining = 0#32 ∧ t.wm.resultValid = true ∧
          t.wm.result = wmPack Config.hw t.wm.counters ∧
          ticksTakingBits xs s = s.wm.remaining.toNat)) ∧
      (s.wm.l.onlyValid = false → ticksTakingBits xs s = min xs.length s.wm.remaining.toNat)
end

