-- ==== Sys2Proof/Laws/State.lean ====
section
/-! SUPPORT. One lemma per field per update of State, true by `rfl`, so that no later proof unfolds a record
update. -/

namespace Sys2Proof.Machine

@[simp] theorem State.withPrng_prng (s : State) (p : Prng) : (s.withPrng p).prng = p := rfl
@[simp] theorem State.withPrng_emux (s : State) (p : Prng) : (s.withPrng p).emux = s.emux := rfl
@[simp] theorem State.withPrng_wm (s : State) (p : Prng) : (s.withPrng p).wm = s.wm := rfl
@[simp] theorem State.withPrng_bench (s : State) (p : Prng) : (s.withPrng p).bench = s.bench := rfl
@[simp] theorem State.withPrng_reply (s : State) (p : Prng) : (s.withPrng p).reply = s.reply := rfl
@[simp] theorem State.withPrng_inbox (s : State) (p : Prng) : (s.withPrng p).inbox = s.inbox := rfl
@[simp] theorem State.withPrng_draws (s : State) (p : Prng) : (s.withPrng p).draws = s.draws := rfl

@[simp] theorem State.withEmux_prng (s : State) (e : Emux) : (s.withEmux e).prng = s.prng := rfl
@[simp] theorem State.withEmux_emux (s : State) (e : Emux) : (s.withEmux e).emux = e := rfl
@[simp] theorem State.withEmux_wm (s : State) (e : Emux) : (s.withEmux e).wm = s.wm := rfl
@[simp] theorem State.withEmux_bench (s : State) (e : Emux) : (s.withEmux e).bench = s.bench := rfl
@[simp] theorem State.withEmux_reply (s : State) (e : Emux) : (s.withEmux e).reply = s.reply := rfl
@[simp] theorem State.withEmux_inbox (s : State) (e : Emux) : (s.withEmux e).inbox = s.inbox := rfl
@[simp] theorem State.withEmux_draws (s : State) (e : Emux) : (s.withEmux e).draws = s.draws := rfl

@[simp] theorem State.withWm_prng (s : State) (m : Monitor) : (s.withWm m).prng = s.prng := rfl
@[simp] theorem State.withWm_emux (s : State) (m : Monitor) : (s.withWm m).emux = s.emux := rfl
@[simp] theorem State.withWm_wm (s : State) (m : Monitor) : (s.withWm m).wm = m := rfl
@[simp] theorem State.withWm_bench (s : State) (m : Monitor) : (s.withWm m).bench = s.bench := rfl
@[simp] theorem State.withWm_reply (s : State) (m : Monitor) : (s.withWm m).reply = s.reply := rfl
@[simp] theorem State.withWm_inbox (s : State) (m : Monitor) : (s.withWm m).inbox = s.inbox := rfl
@[simp] theorem State.withWm_draws (s : State) (m : Monitor) : (s.withWm m).draws = s.draws := rfl

@[simp] theorem State.withBench_prng (s : State) (b : Option Lfsr) : (s.withBench b).prng = s.prng := rfl
@[simp] theorem State.withBench_emux (s : State) (b : Option Lfsr) : (s.withBench b).emux = s.emux := rfl
@[simp] theorem State.withBench_wm (s : State) (b : Option Lfsr) : (s.withBench b).wm = s.wm := rfl
@[simp] theorem State.withBench_bench (s : State) (b : Option Lfsr) : (s.withBench b).bench = b := rfl
@[simp] theorem State.withBench_reply (s : State) (b : Option Lfsr) : (s.withBench b).reply = s.reply := rfl
@[simp] theorem State.withBench_inbox (s : State) (b : Option Lfsr) : (s.withBench b).inbox = s.inbox := rfl
@[simp] theorem State.withBench_draws (s : State) (b : Option Lfsr) : (s.withBench b).draws = s.draws := rfl

@[simp] theorem State.withReply_prng (s : State) (r : Reply) : (s.withReply r).prng = s.prng := rfl
@[simp] theorem State.withReply_emux (s : State) (r : Reply) : (s.withReply r).emux = s.emux := rfl
@[simp] theorem State.withReply_wm (s : State) (r : Reply) : (s.withReply r).wm = s.wm := rfl
@[simp] theorem State.withReply_bench (s : State) (r : Reply) : (s.withReply r).bench = s.bench := rfl
@[simp] theorem State.withReply_reply (s : State) (r : Reply) : (s.withReply r).reply = r := rfl
@[simp] theorem State.withReply_inbox (s : State) (r : Reply) : (s.withReply r).inbox = s.inbox := rfl
@[simp] theorem State.withReply_draws (s : State) (r : Reply) : (s.withReply r).draws = s.draws := rfl

end Sys2Proof.Machine
end

