-- ==== Sys2Proof/Laws/Ops.lean ====
section
/-! SUPPORT. What each shared register operation does, said once: the feedback shift bit by bit, iterated
clocking, the forcing write, access by index, and how an operation ends. -/

namespace Sys2Proof.Machine

/-! ### The feedback shift -/

theorem shiftIn_getLsbD_zero {w : Nat} (s : BitVec w) (b : Bool) (hw : 0 < w) :
    (shiftIn s b).getLsbD 0 = b := by
  simp [shiftIn, hw]

theorem shiftIn_getLsbD_succ {w : Nat} (s : BitVec w) (b : Bool) (j : Nat) (hj : j + 1 < w) :
    (shiftIn s b).getLsbD (j + 1) = s.getLsbD j := by
  have hs : j < w := by omega
  simp [shiftIn, hj, BitVec.getLsbD_eq_getElem hs]

theorem lfsrStep_eq_inj_false {w : Nat} (taps : List Nat) (s : BitVec w) :
    lfsrStep taps s = lfsrStepInj taps s false := by
  simp [lfsrStep, lfsrStepInj]

/-- The feedback of positions below `n` depends on those bits of the state only. -/
theorem tapParity_congr {w v : Nat} (taps : List Nat) (s : BitVec w) (t : BitVec v) (n : Nat)
    (h : ∀ p < n, p ∈ taps → s.getLsbD p = t.getLsbD p) : tapParity taps s n = tapParity taps t n := by
  induction n with
  | zero => rfl
  | succ n ih =>
    have ih' := ih fun p hp hm => h p (by omega) hm
    by_cases hm : n ∈ taps
    · simp [tapParity, ih', hm, h n (by omega) hm]
    · simp [tapParity, ih', hm]

theorem tapParity_zero {w : Nat} (taps : List Nat) (n : Nat) : tapParity taps (0#w) n = false := by
  induction n with
  | zero => rfl
  | succ n ih => simp [tapParity, ih]

/-- The zero state steps to zero (40_lfsr.md R118). -/
theorem lfsrStep_zero {w : Nat} (taps : List Nat) : lfsrStep taps (0#w) = 0#w := by
  simp [lfsrStep, feedback, tapParity_zero, shiftIn]

theorem lfsrClock_succ {w : Nat} (taps : List Nat) (n : Nat) (s : BitVec w) :
    lfsrClock taps (n + 1) s = lfsrClock taps n (lfsrStep taps s) := rfl

/-- Clocking `a` then `b` steps is clocking `a + b` steps (R115). -/
theorem lfsrClock_add {w : Nat} (taps : List Nat) (a b : Nat) (s : BitVec w) :
    lfsrClock taps (a + b) s = lfsrClock taps b (lfsrClock taps a s) := by
  induction a generalizing s with
  | zero => simp [lfsrClock]
  | succ a ih => rw [Nat.succ_add, lfsrClock_succ, ih, lfsrClock_succ]

/-! ### The forcing write -/

/-- A forcing write never leaves zero (41_prng_combiner.md R131). -/
theorem Channel.write_state_ne_zero {w : Nat} (hw : 0 < w) (c : Channel w) (v : BitVec w) :
    (c.write v).state ≠ 0#w := by
  unfold Channel.write
  split
  · intro h
    have := congrArg BitVec.toNat h
    simp only [BitVec.toNat_ofNat, Nat.zero_mod] at this
    rw [Nat.mod_eq_of_lt (Nat.one_lt_two_pow (by omega))] at this
    omega
  · assumption

/-- A forcing write never clears the sticky bit (10_state.md R24). -/
theorem Channel.write_recovered {w : Nat} (c : Channel w) (v : BitVec w) (h : c.recovered = true) :
    (c.write v).recovered = true := by
  unfold Channel.write
  split
  · rfl
  · exact h

/-- A property that every forcing write gives and keeps holds after any number of steps. -/
theorem Channel.clock_induction {w : Nat} (P : Channel w → Prop) (taps : List Nat) (n : Nat)
    (c : Channel w) (hc : P c) (h : ∀ (d : Channel w) (v : BitVec w), P d → P (d.write v)) :
    P (c.clock taps n) := by
  induction n generalizing c with
  | zero => exact hc
  | succ n ih => exact ih _ (h _ _ hc)

/-! ### Access by index -/

/-- What `onLfsr` does to each combiner LFSR, and that it leaves the configuration alone. -/
theorem Prng.onLfsr_cases (C : Params) (i : Fin 4)
    (f : {w : Nat} → List Nat → Channel w → Channel w) (p : Prng) :
    (p.onLfsr C i f).lfsr0 = (if i = 0 then f (positions C.prngPoly0) p.lfsr0 else p.lfsr0) ∧
    (p.onLfsr C i f).lfsr1 = (if i = 1 then f (positions C.prngPoly1) p.lfsr1 else p.lfsr1) ∧
    (p.onLfsr C i f).lfsr2 = (if i = 2 then f (positions C.prngPoly2) p.lfsr2 else p.lfsr2) ∧
    (p.onLfsr C i f).lfsr3 = (if i = 3 then f (positions C.prngPoly3) p.lfsr3 else p.lfsr3) ∧
    (p.onLfsr C i f).enable = p.enable ∧ (p.onLfsr C i f).minValid = p.minValid := by
  match i with
  | 0 => simp [Prng.onLfsr]
  | 1 => simp [Prng.onLfsr]
  | 2 => simp [Prng.onLfsr]
  | 3 => simp [Prng.onLfsr]

/-! ### The combiner's tap sets -/

/-- Lists that differ as tap sets have a position that only one of them holds. -/
theorem tapsDiffer_iff (a b : List Nat) : tapsDiffer a b = true ↔ ∃ p, ¬(p ∈ a ↔ p ∈ b) := by
  simp only [tapsDiffer, Bool.not_eq_true', Bool.and_eq_false_iff, List.all_eq_false, List.contains_iff_mem]
  constructor
  · rintro (⟨p, hp, hq⟩ | ⟨p, hp, hq⟩)
    · exact ⟨p, fun h => hq (h.1 hp)⟩
    · exact ⟨p, fun h => hq (h.2 hp)⟩
  · rintro ⟨p, hp⟩
    by_cases ha : p ∈ a
    · exact .inl ⟨p, ha, fun hb => hp ⟨fun _ => hb, fun _ => ha⟩⟩
    · by_cases hb : p ∈ b
      · exact .inr ⟨p, hb, ha⟩
      · exact absurd ⟨fun h => absurd h ha, fun h => absurd h hb⟩ hp

/-- The block's combiner polynomials are pairwise distinct (41_prng_combiner.md R130, D3). -/
theorem hw_polynomials_distinct :
    [positions Config.hw.prngPoly0, positions Config.hw.prngPoly1, positions Config.hw.prngPoly2,
      positions Config.hw.prngPoly3].Pairwise (fun a b => tapsDiffer a b = true) :=
  Config.hw.prngDistinct

/-! ### How an operation ends -/

theorem finish_next {r : Reply} {s t : State} (h : finish r s = .next t) : t = s.withReply r := by
  cases h; rfl

theorem raise_next {e : OpError} {s t : State} (h : raise e s = .next t) : t = s.withReply (.err e) :=
  finish_next h

/-- A bench operation gives a next state only with an instance, and then it is the body's. -/
theorem onBench_next {s t : State} {f : Lfsr → Machine.Result} (h : onBench s f = .next t) :
    ∃ L, s.bench = some L ∧ f L = .next t := by
  unfold onBench at h
  split at h
  · exact ⟨_, ‹_›, h⟩
  · cases h

end Sys2Proof.Machine
end

