-- ==== Sys2Proof/Laws/Monitor.lean ====
section
/-! SUPPORT. What the monitor's shared operations do: the cases of the countdown, of the arm step, of a cycle,
of a pattern and of the monitor's part of a tick. -/

namespace Sys2Proof.Machine

/-- The countdown keeps the configuration and the latch, whichever way it ends. -/
theorem Monitor.countDown_cfg_l (C : Params) (m : Monitor) :
    (m.countDown C).cfg = m.cfg ∧ (m.countDown C).l = m.l := by
  unfold Monitor.countDown Monitor.complete
  dsimp only
  split
  · split
    · unfold Monitor.arm Monitor.enterRun Monitor.clearRun
      simp only [Bool.false_eq_true, if_false]
      split <;> exact ⟨rfl, rfl⟩
    · exact ⟨rfl, rfl⟩
  · exact ⟨rfl, rfl⟩

/-- The three ways a cycle goes: the monitor does not run, the cycle is skipped, or one bit is consumed. -/
theorem Monitor.cycle_cases (rule : Bool → Monitor → Monitor) (valid b : Bool) (m : Monitor) :
    (m.state ≠ .running ∧ m.cycle Config.hw rule valid b = m) ∨
    (m.state = .running ∧ m.skips valid = true ∧ m.cycle Config.hw rule valid b = m) ∨
    (m.state = .running ∧ m.skips valid = false ∧
      m.cycle Config.hw rule valid b = (m.update rule b).countDown Config.hw) := by
  unfold Monitor.cycle Monitor.running
  by_cases hr : m.state = .running
  · cases m.skips valid <;> simp [hr, Config.hw]
  · simp [hr]

/-- A pattern always completes: either the monitor takes the cycle of the pattern's rule, or nothing
happens. -/
theorem runPattern_eq (mode : BitVec 2) (subtype v : Bool) (d : BitVec 8)
    (rule : Bool → Monitor → Monitor) (s : State) :
    runPattern mode subtype v d rule s = .next ((s.withWm
      (if s.wm.holds mode subtype v d then
        s.wm.cycle Config.hw rule (s.monitorInput Config.hw).1 (s.monitorInput Config.hw).2
       else s.wm)).withReply .ok) := by
  unfold runPattern finish
  dsimp only
  split <;> rfl

/-- A tick that gives a next state: the monitor's part is a cycle under some rule, or nothing. -/
theorem tickMonitor_cases {s : State} {m : Monitor} (h : s.tickMonitor Config.hw = some m) :
    (∃ rule, s.wm.latchedRule = some rule ∧
      m = s.wm.cycle Config.hw rule (s.monitorInput Config.hw).1 (s.monitorInput Config.hw).2) ∨
    (s.wm.latchedRule = none ∧ m = s.wm) := by
  unfold State.tickMonitor at h
  dsimp only at h
  split at h
  · exact .inl ⟨_, ‹_›, (Option.some.inj h).symm⟩
  · split at h
    · cases h
    · refine .inr ⟨‹_›, ?_⟩
      obtain ⟨_, he⟩ | ⟨_, _, he⟩ | ⟨hr, hs, _⟩ := Monitor.cycle_cases (fun _ m => m)
        (s.monitorInput Config.hw).1 (s.monitorInput Config.hw).2 s.wm
      · exact (Option.some.inj h).symm.trans he
      · exact (Option.some.inj h).symm.trans he
      · simp_all [Monitor.running]

/-- What a tick does when it gives a next state. -/
theorem execTick_next {x : BitVec 4} {s t : State} (h : execTick x s = .next t) :
    ∃ m, s.tickMonitor Config.hw = some m ∧
      t = ((((s.withWm m).withPrng (s.prng.tick Config.hw)).withEmux
        (s.emux.drive Config.hw x)).withReply .ok) := by
  unfold execTick State.clockTick at h
  cases hm : s.tickMonitor Config.hw with
  | none => simp [hm] at h
  | some m =>
    simp only [hm, Option.map_some] at h
    exact ⟨m, rfl, finish_next h⟩

end Sys2Proof.Machine
end

