-- ==== Sys2Proof/Laws/Exec.lean ====
section
/-! SUPPORT. What an operation does when it gives a next state: one lemma per operation, in terms of the
shared operations, so that no later proof unfolds `exec`. -/

namespace Sys2Proof.Machine

/-! ### The patterns -/

theorem exec_wmCountOnes (v : Bool) (d : BitVec 8) (s : State) :
    exec (.wmCountOnes v d) s = runPattern 0#2 false v d countOnes s := rfl

theorem exec_wmCountToggles (v : Bool) (d : BitVec 8) (s : State) :
    exec (.wmCountToggles v d) s = runPattern 0#2 true v d countToggles s := rfl

theorem exec_wmRunlen (v : Bool) (d : BitVec 8) (s : State) :
    exec (.wmRunlen v d) s = runPattern 1#2 false v d runLength s := rfl

theorem exec_wmIllegal (v : Bool) (d : BitVec 8) (s : State) :
    exec (.wmIllegal v d) s = raise .invalidTestMode s := rfl

theorem exec_wmTmatchNovl (v : Bool) (d : BitVec 8) (s : State) :
    exec (.wmTmatchNovl v d) s = runPattern 2#2 false v d templateNonOverlapping s := rfl

theorem exec_wmTmatchOvl (v : Bool) (d : BitVec 8) (s : State) :
    exec (.wmTmatchOvl v d) s = runPattern 2#2 true v d templateOverlapping s := rfl

theorem exec_wmMaxexcMax (v : Bool) (d : BitVec 8) (s : State) :
    exec (.wmMaxexcMax v d) s = runPattern 3#2 false v d excursionMax s := rfl

theorem exec_wmMaxexcHit (v : Bool) (d : BitVec 8) (s : State) :
    exec (.wmMaxexcHit v d) s = runPattern 3#2 true v d excursionHit s := rfl

/-! ### The free-standing LFSR -/

theorem exec_lfsrNew_next {width : Nat} {taps : List Nat} {s t : State}
    (h : exec (.lfsrNew width taps) s = .next t) :
    lfsrDomain width taps = true ∧
      t = (s.withBench (some ⟨width, tapSet width taps, 0#width⟩)).withReply .ok := by
  simp only [exec, execLfsrNew] at h
  split at h
  · exact ⟨‹_›, finish_next h⟩
  · cases h

theorem exec_lfsrSet_next {v : Nat} {s t : State} (h : exec (.lfsrSet v) s = .next t) :
    ∃ L : Lfsr, s.bench = some L ∧
      t = (s.withBench (some { L with state := BitVec.ofNat L.width v })).withReply .ok := by
  obtain ⟨L, hL, h⟩ := onBench_next h
  exact ⟨L, hL, finish_next h⟩

theorem exec_lfsrGet_next {k : Option Nat} {s t : State} (h : exec (.lfsrGet k) s = .next t) :
    ∃ L : Lfsr, s.bench = some L ∧ k.getD L.width ≤ L.width ∧
      t = s.withReply (.value (L.state.toNat % 2 ^ k.getD L.width)) := by
  obtain ⟨L, hL, h⟩ := onBench_next h
  dsimp only at h
  split at h
  · exact ⟨L, hL, ‹_›, finish_next h⟩
  · cases h

theorem exec_lfsrClock_next {n : Nat} {s t : State} (h : exec (.lfsrClock n) s = .next t) :
    ∃ L : Lfsr, s.bench = some L ∧
      t = (s.withBench (some { L with state := lfsrClock L.taps n L.state })).withReply .ok := by
  obtain ⟨L, hL, h⟩ := onBench_next h
  exact ⟨L, hL, finish_next h⟩

/-! ### The combiner -/

theorem exec_prngSet (i : Fin 4) (v : Nat) (s : State) :
    exec (.prngSet i v) s =
      finish .ok (s.withPrng (s.prng.onLfsr Config.hw i (fun _ c => c.set v))) := rfl

theorem exec_prngClock (n : Nat) (s : State) :
    exec (.prngClock n) s = finish .ok (s.withPrng (s.prng.clock Config.hw n)) := rfl

theorem exec_prngGetvalue (s : State) :
    exec .prngGetvalue s = finish (.pair s.prng.votesOk s.prng.bit) s := rfl

theorem exec_prngMix (i : Fin 4) (chunk : BitVec 16) (s : State) :
    exec (.prngMix i chunk) s = finish .ok (s.withPrng (s.prng.mix Config.hw i chunk)) := rfl

theorem exec_prngSeed (chunks : SeedChunks) (s : State) :
    exec (.prngSeed chunks) s = finish .ok (s.withPrng (s.prng.seed Config.hw chunks)) := rfl

theorem exec_prngCfgwr (enable : Bool) (minValid : BitVec 3) (s : State) :
    exec (.prngCfgwr enable minValid) s =
      if 4#3 < minValid then raise .configurationError s
      else finish .ok (s.withPrng { s.prng with enable := enable, minValid := minValid }) := rfl

theorem exec_prngRd (s : State) :
    exec .prngRd s = finish (.word s.prng.data) s := rfl

/-! ### The mux, the monitor, the clock, reset -/

theorem exec_emuxDrive (x : BitVec 4) (s : State) :
    exec (.emuxDrive x) s = finish (.bit ((s.emux.drive Config.hw x).out Config.hw))
      (s.withEmux (s.emux.drive Config.hw x)) := rfl

/-- The ways a control write goes: illegal pattern, source change, ignored request, plain store, arm. -/
theorem exec_wmCtlwr_cases (request continuous source : Bool) (control : ControlWord) (s : State) :
    let m := s.wm.storeControl continuous (Source.ofBit source) control
    (Control.illegal control = true ∧ exec (.wmCtlwr request continuous source control) s =
      .next (s.withReply (.err .invalidTestMode))) ∨
    (Control.illegal control = false ∧ s.wm.state = .running ∧ s.wm.cfg.continuous = true ∧
      Source.ofBit source ≠ s.wm.cfg.source ∧ exec (.wmCtlwr request continuous source control) s =
      .next (s.withReply (.err .configurationError))) ∨
    (Control.illegal control = false ∧
      ¬(s.wm.state = .running ∧ s.wm.cfg.continuous = true ∧ Source.ofBit source ≠ s.wm.cfg.source) ∧
      ((request = false ∧ exec (.wmCtlwr request continuous source control) s =
          .next ((s.withWm m).withReply .ok)) ∨
        (request = true ∧ s.wm.state = .running ∧
          exec (.wmCtlwr request continuous source control) s =
            .next ((s.withWm m).withReply .ignoredStateViolation)) ∨
        (request = true ∧ s.wm.state ≠ .running ∧
          exec (.wmCtlwr request continuous source control) s =
            .next ((s.withWm (m.arm Config.hw true)).withReply .ok)))) := by
  dsimp only
  simp only [exec, execWmCtlwr, raise, finish]
  cases hi : Control.illegal control
  · by_cases hr : s.wm.state = .running
    · cases hc : s.wm.cfg.continuous
      · cases request <;> simp [Monitor.continuousActive, Monitor.running, Monitor.storeControl, hr, hc]
      · by_cases hs : Source.ofBit source = s.wm.cfg.source
        · cases request <;>
            simp [Monitor.continuousActive, Monitor.running, Monitor.storeControl, hr, hc, hs]
        · simp [Monitor.continuousActive, Monitor.running, hr, hc, hs]
    · cases request <;> simp [Monitor.continuousActive, Monitor.running, Monitor.storeControl, hr]
  · simp

theorem exec_wmRlwr (v : Word) (s : State) :
    exec (.wmRlwr v) s =
      finish .ok (s.withWm { s.wm with cfg := { s.wm.cfg with runLength := v } }) := rfl

theorem exec_wmRd0 (s : State) :
    exec .wmRd0 s = finish (.word (s.wm.result.extractLsb' 0 32)) s := rfl

theorem exec_wmRd1 (s : State) :
    exec .wmRd1 s = finish (.word (s.wm.result.extractLsb' 32 32)) s := rfl

theorem exec_statusRd (s : State) :
    exec .statusRd s = finish (.bit s.wm.resultReady) s := rfl

theorem exec_tick_next {x : BitVec 4} {s t : State} (h : exec (.tick x) s = .next t) :
    ∃ m, s.tickMonitor Config.hw = some m ∧
      t = ((((s.withWm m).withPrng (s.prng.tick Config.hw)).withEmux
        (s.emux.drive Config.hw x)).withReply .ok) := execTick_next h

theorem exec_reset (s : State) :
    exec .reset s =
      finish .ok (((s.withPrng Prng.reset).withEmux Emux.reset).withWm Monitor.reset) := rfl

end Sys2Proof.Machine
end

