-- ==== Sys2Proof/Laws/PerInstr.lean ====
section
/-! SUPPORT. Statements made once per instruction. `ReservedZero`: the control word an instruction encodes to
has its reserved bits 11:8 zero (30_encoding.md R81, R82); an operation that is no pattern has none. -/

namespace Sys2Proof.Laws

/-- No field of a packed control word lies in bits 11:8. -/
theorem pack_reserved_zero (mode : BitVec 2) (subtype v : Bool) (d : BitVec 8) :
    Control.pack mode subtype v d &&& 0x0F00#16 = 0#16 := by
  unfold Control.pack
  ext i hi
  have : i < 8 ∨ i = 8 ∨ i = 9 ∨ i = 10 ∨ i = 11 ∨ 12 ≤ i := by omega
  rcases this with h | rfl | rfl | rfl | rfl | h
  · interval_cases i <;> simp
  · simp
  · simp
  · simp
  · simp
  · interval_cases i <;> simp

/-- The reserved bits of the instruction's control word are zero. -/
def ReservedZero.Statement (i : Instr) : Prop :=
  ∀ w : ControlWord, encodeControl i = some w → w &&& 0x0F00#16 = 0#16

/-- A packed word has them zero. -/
theorem reservedZero_of_pack {i : Instr} {mode : BitVec 2} {subtype v : Bool} {d : BitVec 8}
    (h : encodeControl i = some (Control.pack mode subtype v d)) : ReservedZero.Statement i := by
  intro w hw
  rw [h] at hw
  exact Option.some.inj hw ▸ pack_reserved_zero mode subtype v d

/-- An operation that is no pattern has no control word. -/
theorem reservedZero_of_none {i : Instr} (h : encodeControl i = none) : ReservedZero.Statement i := by
  intro w hw
  rw [h] at hw
  cases hw

theorem ReservedZero.wmCountOnes (onlyValid : Bool) (data : BitVec 8) :
    ReservedZero.Statement (.wmCountOnes onlyValid data) := reservedZero_of_pack rfl

theorem ReservedZero.wmCountToggles (onlyValid : Bool) (data : BitVec 8) :
    ReservedZero.Statement (.wmCountToggles onlyValid data) := reservedZero_of_pack rfl

theorem ReservedZero.wmRunlen (onlyValid : Bool) (data : BitVec 8) :
    ReservedZero.Statement (.wmRunlen onlyValid data) := reservedZero_of_pack rfl

theorem ReservedZero.wmIllegal (onlyValid : Bool) (data : BitVec 8) :
    ReservedZero.Statement (.wmIllegal onlyValid data) := reservedZero_of_pack rfl

theorem ReservedZero.wmTmatchNovl (onlyValid : Bool) (data : BitVec 8) :
    ReservedZero.Statement (.wmTmatchNovl onlyValid data) := reservedZero_of_pack rfl

theorem ReservedZero.wmTmatchOvl (onlyValid : Bool) (data : BitVec 8) :
    ReservedZero.Statement (.wmTmatchOvl onlyValid data) := reservedZero_of_pack rfl

theorem ReservedZero.wmMaxexcMax (onlyValid : Bool) (data : BitVec 8) :
    ReservedZero.Statement (.wmMaxexcMax onlyValid data) := reservedZero_of_pack rfl

theorem ReservedZero.wmMaxexcHit (onlyValid : Bool) (data : BitVec 8) :
    ReservedZero.Statement (.wmMaxexcHit onlyValid data) := reservedZero_of_pack rfl

theorem ReservedZero.lfsrNew (width : Nat) (taps : List Nat) :
    ReservedZero.Statement (.lfsrNew width taps) := reservedZero_of_none rfl

theorem ReservedZero.lfsrSet (value : Nat) :
    ReservedZero.Statement (.lfsrSet value) := reservedZero_of_none rfl

theorem ReservedZero.lfsrGet (k : Option Nat) :
    ReservedZero.Statement (.lfsrGet k) := reservedZero_of_none rfl

theorem ReservedZero.lfsrClock (n : Nat) :
    ReservedZero.Statement (.lfsrClock n) := reservedZero_of_none rfl

theorem ReservedZero.prngSet (i : Fin 4) (value : Nat) :
    ReservedZero.Statement (.prngSet i value) := reservedZero_of_none rfl

theorem ReservedZero.prngClock (n : Nat) :
    ReservedZero.Statement (.prngClock n) := reservedZero_of_none rfl

theorem ReservedZero.prngGetvalue :
    ReservedZero.Statement .prngGetvalue := reservedZero_of_none rfl

theorem ReservedZero.prngMix (i : Fin 4) (chunk : BitVec 16) :
    ReservedZero.Statement (.prngMix i chunk) := reservedZero_of_none rfl

theorem ReservedZero.prngSeed (chunks : SeedChunks) :
    ReservedZero.Statement (.prngSeed chunks) := reservedZero_of_none rfl

theorem ReservedZero.prngCfgwr (enable : Bool) (minValid : BitVec 3) :
    ReservedZero.Statement (.prngCfgwr enable minValid) := reservedZero_of_none rfl

theorem ReservedZero.prngRd :
    ReservedZero.Statement .prngRd := reservedZero_of_none rfl

theorem ReservedZero.emuxDrive (sample : BitVec 4) :
    ReservedZero.Statement (.emuxDrive sample) := reservedZero_of_none rfl

theorem ReservedZero.wmCtlwr (request continuous source : Bool) (control : ControlWord) :
    ReservedZero.Statement (.wmCtlwr request continuous source control) := reservedZero_of_none rfl

theorem ReservedZero.wmRlwr (value : Word) :
    ReservedZero.Statement (.wmRlwr value) := reservedZero_of_none rfl

theorem ReservedZero.wmRd0 :
    ReservedZero.Statement .wmRd0 := reservedZero_of_none rfl

theorem ReservedZero.wmRd1 :
    ReservedZero.Statement .wmRd1 := reservedZero_of_none rfl

theorem ReservedZero.statusRd :
    ReservedZero.Statement .statusRd := reservedZero_of_none rfl

theorem ReservedZero.tick (sample : BitVec 4) :
    ReservedZero.Statement (.tick sample) := reservedZero_of_none rfl

theorem ReservedZero.reset :
    ReservedZero.Statement .reset := reservedZero_of_none rfl

end Sys2Proof.Laws
end

