-- ==== Sys2Proof/Tests/Slice0.lean ====
section
/-! SUPPORT. Small checks: ill-formed terms, words written out from the spec's layouts, one-step tests with
results taken from spec/95_test_vectors.md or computed by hand from the rules, and, for every statement of
Obligations.lean that has hypotheses, a concrete case that meets them (`test_witness_…`). -/

namespace Sys2Proof.Tests

open Sys2Proof.Machine Sys2Proof.Claims

/-! ### Helpers -/

/-- The next state's image, if there is one. -/
def after {α : Type} (f : State → α) : Machine.Result → Option α
  | .next t => some (f t)
  | .fault _ => none
  | .refused _ => none

/-- Why the machine turned an operation away. -/
def refusal : Machine.Result → Option Refusal
  | .refused r => some r
  | .next _ => none
  | .fault _ => none

/-- The example parameters of 95_test_vectors.md (no hardware values). -/
def ex : Params where
  prngPoly0 := [46, 4]
  prngPoly1 := [52, 5]
  prngPoly2 := [58, 6]
  prngPoly3 := [60, 4]
  prngDistinct := by decide
  emuxPoly0 := [4, 2]
  emuxPoly1 := [5, 4]
  emuxPoly2 := [6, 5]
  emuxPoly3 := [7, 5, 4, 3]
  emuxObs0 := 4
  emuxObs1 := 5
  emuxObs2 := 6
  emuxObs3 := 7
  emuxActiveFn := fun _ _ => true
  stepsPerTick := 1
  budgetCountsSkipped := false
  wmPack := packLanes

/-- A combiner with these four states, enabled, no recovery. -/
def comb (a : BitVec 47) (b : BitVec 53) (d : BitVec 59) (e : BitVec 61) (minValid : BitVec 3) : Prng :=
  ⟨⟨a, false⟩, ⟨b, false⟩, ⟨d, false⟩, ⟨e, false⟩, true, minValid⟩

/-- The four states of a combiner as numbers. -/
def states (p : Prng) : List Nat :=
  [p.lfsr0.state.toNat, p.lfsr1.state.toNat, p.lfsr2.state.toNat, p.lfsr3.state.toNat]

/-- Monitor Running for two of eight bits on the PRNG output, whose bit is 1 (V-P7) or 0 (V-P1). -/
def live (mode : BitVec 2) (subtype onlyValid : Bool) (data : BitVec 8) (bit : Bool) : State :=
  { State.reset with
    prng := comb 1 1 1 (if bit then 2 else 1) 0
    wm := { Monitor.reset with
      l := ⟨mode, subtype, onlyValid, data, 8#32, .prngOut⟩
      state := .running, remaining := 2#32 } }

/-- Change the monitor of a state. -/
def onWm (f : Monitor → Monitor) (s : State) : State := { s with wm := f s.wm }

/-- The four counters as numbers. -/
def counts (m : Monitor) : List Nat :=
  [m.counters.c0.toNat, m.counters.c1.toNat, m.counters.c2.toNat, m.counters.c3.toNat]

/-- A state that holds the free-standing LFSR `(5, {4,2})` with this state. -/
def bench5 (v : BitVec 5) : State := { State.reset with bench := some ⟨5, [2, 4], v⟩ }

/-- The state of the free-standing LFSR. -/
def benchState (s : State) : Option Nat := s.bench.map fun L => L.state.toNat

/-! ### WellFormed refuses an ill-formed term -/

theorem test_lfsrNew_width_zero_is_ill_formed : (Instr.lfsrNew 0 []).wellFormed = false := by decide
theorem test_lfsrNew_tap_at_width_is_ill_formed : (Instr.lfsrNew 5 [4, 5]).wellFormed = false := by decide
theorem test_lfsrNew_in_domain_is_well_formed : (Instr.lfsrNew 5 [4, 2]).wellFormed = true := by decide

/-! ### Decoding: the words of 30_encoding.md R84's map, `mode subtype only_valid reserved data`, and R91 -/

theorem test_decode_count_ones :
    decodeTableWord 16 0b00_0_1_0000_10101011 = some (.wmCountOnes true 0xAB#8) := by decide
theorem test_decode_count_toggles :
    decodeTableWord 16 0b00_1_0_0000_00000001 = some (.wmCountToggles false 1#8) := by decide
theorem test_decode_runlen :
    decodeTableWord 16 0b01_0_1_0000_00000010 = some (.wmRunlen true 2#8) := by decide
theorem test_decode_illegal :
    decodeTableWord 16 0b01_1_1_1111_11111111 = some (.wmIllegal true 0xFF#8) := by decide
theorem test_decode_tmatch_novl :
    decodeTableWord 16 0b10_0_0_0000_00110000 = some (.wmTmatchNovl false 0x30#8) := by decide
theorem test_decode_tmatch_ovl_drops_reserved :
    decodeTableWord 16 0b10_1_1_0111_10100101 = some (.wmTmatchOvl true 0xA5#8) := by decide
theorem test_decode_maxexc_max :
    decodeTableWord 16 0b11_0_0_0000_00000000 = some (.wmMaxexcMax false 0#8) := by decide
theorem test_decode_maxexc_hit :
    decodeTableWord 16 0b11_1_1_0000_11111110 = some (.wmMaxexcHit true 0xFE#8) := by decide
theorem test_decode_run_length_word :
    decodeTableWord 32 0b00000000_00000000_00000000_00001100 = some (.wmRlwr 12#32) := by decide
theorem test_decode_other_width_is_rejected :
    decode (.word 8 0x30) = .error (.noFormat 8) := by decide
theorem test_decode_too_wide_is_rejected :
    decode (.word 16 0x10000) = .error (.tooWide 16 0x10000) := by decide
theorem test_decode_by_name : decode (.named (.prngSet 2 7)) = .ok (.prngSet 2 7) := by decide
theorem test_encode_writes_the_word :
    encode (.wmMaxexcHit true 0xFE#8) = .word 16 0xF0FE ∧ encode (.wmRlwr 12#32) = .word 32 12 := by decide

/-! ### The step and the placed word -/

theorem test_placed_word_runs_after_reset :
    after (fun s => (s.inbox, s.reply)) (step (State.reset.withFetchWord 16 0x0000)) =
      some ([], .ok) := by decide
theorem test_placed_word_is_in_force :
    after (fun s => (counts s.wm, s.wm.remaining))
      (step ((live 3 true false 9 true).withFetchWord 16 0x00AB)) = some ([1, 0, 0, 0], 1#32) := by decide
theorem test_placed_illegal_word_is_rejected :
    after (fun s => s.reply) (step (State.reset.withFetchWord 16 0x6000)) =
      some (.err .invalidTestMode) := by decide
theorem test_placed_run_length_is_written :
    after (fun s => s.wm.cfg.runLength) (step (State.reset.withFetchWord 32 12)) = some 12#32 := by decide
theorem test_undecodable_word_stops_by_name :
    refusal (step (State.reset.withFetchWord 8 1)) = some (.undecodable (.noFormat 8)) := by decide

/-! ### The LFSR primitive (95_test_vectors.md 2.1) -/

theorem test_lfsrNew_starts_at_zero :
    after benchState (exec (.lfsrNew 5 [4, 2]) State.reset) = some (some 0) := by decide
theorem test_lfsrNew_outside_domain_is_refused :
    refusal (exec (.lfsrNew 5 [5]) State.reset) = some .lfsrOutsideDomain := by decide
theorem test_lfsrSet_masks : after benchState (exec (.lfsrSet 0x25) (bench5 0)) = some (some 5) := by decide
theorem test_lfsrSet_accepts_zero : after benchState (exec (.lfsrSet 32) (bench5 3)) = some (some 0) := by
  decide
theorem test_lfsrGet_low_bits :
    after (fun s => s.reply) (exec (.lfsrGet (some 3)) (bench5 0x1D)) = some (.value 5) := by decide
theorem test_lfsrGet_past_the_width_is_refused :
    refusal (exec (.lfsrGet (some 6)) (bench5 0x1D)) = some .lfsrGetTooWide := by decide
theorem test_lfsrClock_full_period :
    after benchState (exec (.lfsrClock 31) (bench5 0x0B)) = some (some 0x0B) := by decide +kernel
theorem test_lfsrClock_three_steps :
    after benchState (exec (.lfsrClock 3) (bench5 0x0B)) = some (some 0x19) := by decide

/-! ### PrngCombiner (2.2) -/

theorem test_prngSet_zero_is_forced :
    after (fun s => (states s.prng, s.prng.lfsr2.recovered)) (exec (.prngSet 2 0) State.reset) =
      some ([1, 1, 1, 1], true) := by decide
theorem test_prngSet_masks :
    after (fun s => (states s.prng, s.prng.lfsr3.recovered)) (exec (.prngSet 3 (2 ^ 61 + 5)) State.reset) =
      some ([1, 1, 1, 5], false) := by decide
theorem test_prngClock_five : states (Prng.reset.clock ex 5) = [0x21, 0x20, 0x20, 0x21] := by decide +kernel
theorem test_prngClock_zero :
    after (fun s => s.prng) (exec (.prngClock 0) State.reset) = some Prng.reset := by decide
theorem test_prngGetvalue_exact_votes :
    after (fun s => s.reply) (exec .prngGetvalue ⟨comb 1 2 3 4 3, Emux.reset, Monitor.reset, none, .ok, [], 0⟩) =
      some (.pair false true) := by decide
theorem test_prngMix_forces_then_clocks :
    ((comb 0xBEEF 1 1 1 0).mix ex 0 0xBEEF#16).lfsr0 = ⟨0x10842#47, true⟩ := by decide +kernel
theorem test_prngMix_steps : ((comb 1 1 1 1 0).mix ex 0 0xBEEF#16).lfsr0.state = 0xBEEE739C#47 := by
  decide +kernel
theorem test_prngSeed_chunks :
    states (Prng.reset.seed ex #v[0x1001, 0x1002, 0x1003, 0x1004, 0x1005, 0x1006, 0x1007, 0x1008,
      0x1009, 0x100A, 0x100B, 0x100C, 0x100D, 0x100E, 0x100F, 0x1010]) =
      [0x8708C23188, 0x70C76CBE7BEF9, 0x2A44A254870F1E, 0x1316A5A200942168] := by decide +kernel
theorem test_prngCfgwr_four_is_legal :
    after (fun s => (s.prng.enable, s.prng.minValid, s.reply)) (exec (.prngCfgwr true 4) State.reset) =
      some (true, 4#3, .ok) := by decide
theorem test_prngCfgwr_five_is_rejected :
    after (fun s => (s.prng.enable, s.prng.minValid, s.reply)) (exec (.prngCfgwr true 5) State.reset) =
      some (false, 0#3, .err .configurationError) := by decide
theorem test_prngRd_valid_bit :
    after (fun s => s.reply)
      (exec .prngRd ⟨comb 0x42 0x41 0x40 0x42 2, Emux.reset, Monitor.reset, none, .ok, [], 0⟩) =
      some (.word 1#32) := by decide
theorem test_prngRd_hides_the_invalid_bit :
    after (fun s => s.reply)
      (exec .prngRd ⟨comb 0x1084 0x1041 0x1020 0x1084 2, Emux.reset, Monitor.reset, none, .ok, [], 0⟩) =
      some (.word 0#32) := by decide

/-! ### EntropyMux (2.3), drive 6 and drive 12 of V-E1 -/

theorem test_emuxDrive_observes_the_new_state :
    let e := (Emux.mk 0x08 0x0B 0x09 0x0B 0xA true).drive ex 0xA
    (e.lfsr0, e.lfsr1, e.lfsr2, e.lfsr3, e.out ex) = (0x10#5, 0x16#6, 0x12#7, 0x17#8, true) := by
  decide +kernel
theorem test_emuxDrive_injects_the_change :
    let e := (Emux.mk 0x0D 0x24 0x27 0x70 0x7 true).drive ex 0xF
    (e.lfsr0, e.lfsr1, e.lfsr2, e.lfsr3, e.out ex, e.lastSample) =
      (0x1B#5, 0x09#6, 0x4F#7, 0xE1#8, true, 0xF#4) := by decide +kernel

/-! ### WhitenessMonitor control (2.4, 2.6) -/

theorem test_wmCtlwr_drops_reserved_bits :
    after (fun s => (s.wm.cfg.control, s.wm.cfg.source, s.wm.state))
      (exec (.wmCtlwr false false true 0x0F00#16) State.reset) = some (0#16, .prngOut, .idle) := by decide
theorem test_wmCtlwr_arms :
    after (fun s => (s.wm.state, s.wm.remaining, s.wm.l.onlyValid, s.wm.l.source))
      (exec (.wmCtlwr true false true 0x1000#16)
        (onWm (fun m => { m with cfg := { m.cfg with runLength := 8#32 } }) State.reset)) =
      some (.running, 8#32, true, .prngOut) := by decide
theorem test_wmRlwr_leaves_the_run_alone :
    after (fun s => (s.wm.cfg.runLength, s.wm.l.runLength, s.wm.remaining))
      (exec (.wmRlwr 99#32) (live 0 false false 0 true)) = some (99#32, 8#32, 2#32) := by decide
theorem test_wmRd_words :
    after (fun s => s.reply)
      (exec .wmRd0 (onWm (fun m => { m with result := 0x0003000200030001#64 }) State.reset)) =
      some (.word 0x00030001#32) := by decide
theorem test_wmRd1_high_word :
    after (fun s => s.reply)
      (exec .wmRd1 (onWm (fun m => { m with result := 0x0003000200030001#64 }) State.reset)) =
      some (.word 0x00030002#32) := by decide
theorem test_statusRd_after_reset :
    after (fun s => s.reply) (exec .statusRd State.reset) = some (.bit false) := by decide
theorem test_wmPack_lanes :
    wmPack Config.hw ⟨0x12345#32, 0x10000#32, 0xFFFF#32, 0x1FFFF#32⟩ = 0xFFFFFFFF00002345#64 := by decide

/-! ### The update rules, one bit each, by hand from 44_whiteness_modes.md -/

theorem test_countOnes :
    after (fun s => (counts s.wm, s.wm.remaining)) (exec (.wmCountOnes false 0xAB) (live 0 false false 0xAB true)) =
      some ([1, 0, 0, 0], 1#32) := by decide
theorem test_countOnes_skips_invalid :
    after (fun s => (counts s.wm, s.wm.remaining)) (exec (.wmCountOnes true 0)
      { live 0 false true 0 true with prng := comb 1 1 1 2 5 }) = some ([0, 0, 0, 0], 2#32) := by decide
theorem test_countToggles_first_bit_is_none :
    after (fun s => (counts s.wm, s.wm.prevBit)) (exec (.wmCountToggles false 0) (live 0 true false 0 true)) =
      some ([0, 0, 0, 0], true) := by decide
theorem test_countToggles_counts_a_change :
    after (fun s => counts s.wm) (exec (.wmCountToggles false 0)
      (onWm (fun m => { m with prevValid := true }) (live 0 true false 0 true))) =
      some [1, 0, 0, 0] := by decide
theorem test_runLength_closes_a_run_of_two :
    after (fun s => (counts s.wm, s.wm.run)) (exec (.wmRunlen false 2)
      (onWm (fun m => { m with prevValid := true, run := 2#32 }) (live 1 false false 2 true))) =
      some ([1, 0, 0, 0], 1#32) := by decide
theorem test_runLength_longest_run_less_one :
    after (fun s => (counts s.wm, s.wm.run)) (exec (.wmRunlen false 2)
      (onWm (fun m => { m with prevValid := true, prevBit := true, run := 3#32 })
        (live 1 false false 2 true))) = some ([0, 0, 0, 3], 4#32) := by decide
theorem test_template_non_overlapping :
    after (fun s => (counts s.wm, s.wm.fill)) (exec (.wmTmatchNovl false 0x30)
      (onWm (fun m => { m with window := 0b011000#6, fill := 5#3 }) (live 2 false false 0x30 false))) =
      some ([1, 0, 0, 0], 0#3) := by decide
theorem test_template_overlapping :
    after (fun s => (counts s.wm, s.wm.fill)) (exec (.wmTmatchOvl false 0x30)
      (onWm (fun m => { m with window := 0b011000#6, fill := 5#3 }) (live 2 true false 0x30 true))) =
      some ([0, 1, 0, 0], 6#3) := by decide
theorem test_template_needs_six_bits :
    after (fun s => (counts s.wm, s.wm.fill)) (exec (.wmTmatchOvl false 0x00)
      (onWm (fun m => { m with fill := 4#3 }) (live 2 true false 0 false))) =
      some ([0, 0, 0, 0], 5#3) := by decide
theorem test_excursion_max_positive :
    after (fun s => counts s.wm) (exec (.wmMaxexcMax false 0)
      (onWm (fun m => { m with sum := 2#33 }) (live 3 false false 0 true))) = some [0, 0, 3, 0] := by decide
theorem test_excursion_max_negative :
    after (fun s => (counts s.wm, s.wm.sum.toInt)) (exec (.wmMaxexcMax false 0)
      (live 3 false false 0 false)) = some ([0, 0, 0, 1], -1) := by decide
theorem test_excursion_hit_at_n :
    after (fun s => counts s.wm) (exec (.wmMaxexcHit false 2)
      (onWm (fun m => { m with sum := 1#33 }) (live 3 true false 2 true))) = some [0, 0, 1, 0] := by decide
theorem test_excursion_hit_with_negative_n :
    after (fun s => counts s.wm) (exec (.wmMaxexcHit false 0xFE)
      (onWm (fun m => { m with sum := 1#33 }) (live 3 true false 0xFE true))) = some [0, 0, 0, 1] := by decide

/-! ### The clock and reset -/

theorem test_tick_completes_the_run :
    after (fun s => (s.wm.state, s.wm.result, s.wm.resultValid)) (exec (.tick 0)
      (onWm (fun m => { m with remaining := 1#32, counters := ⟨2, 0, 0, 0⟩ })
        (live 0 false false 0 true))) = some (.done, 3#64, true) := by decide
theorem test_tick_leaves_a_disabled_combiner :
    (State.reset.clockTick ex 1).map (fun s => (states s.prng, s.emux.lfsr0, s.emux.lastSample)) =
      some ([1, 1, 1, 1], 1#5, 1#4) := by decide +kernel
theorem test_reset_of_a_live_state :
    after (fun s => (s.prng, s.emux, s.wm)) (exec .reset (live 1 false true 7 true)) =
      some (Prng.reset, Emux.reset, Monitor.reset) := by decide

/-! ### Witnesses: a concrete case that meets the hypotheses of each statement -/

/-- A good state: Running with two of eight bits left. -/
theorem test_live_state_is_good : (live 0 false false 0 true).Inv where
  prng := ⟨by decide, by decide, by decide, by decide, by decide⟩
  wm := by constructor <;> decide
  bench := fun L h => by simp [live, State.reset] at h

theorem test_witness_WordsOfOtherWidthsAreRejected :
    (17 ≠ 16 ∧ 17 ≠ 32 ∧ 2 ^ 17 - 1 < 2 ^ 17) ∧ (0 ≠ 16 ∧ 0 ≠ 32 ∧ 0 < 2 ^ 0) := by decide
theorem test_witness_StepRunsTheDecodedRequest :
    (State.reset.withFetchWord 16 0x8030).inbox = [.word 16 0x8030] ∧
      decode (.word 16 0x8030) = .ok (.wmTmatchNovl false 0x30#8) := by decide
theorem test_witness_StepTicksWhenNothingWaitsAndRejectsUndecodable :
    State.reset.inbox = [] ∧ (State.reset.withFetchWord 8 1).inbox = [.word 8 1] ∧
      decode (.word 8 1) = .error (.noFormat 8) := by decide
theorem test_witness_EveryStepKeepsTheInvariants :
    (live 0 false false 0 true).Inv ∧ ∃ t, step (live 0 false false 0 true) = .next t :=
  ⟨test_live_state_is_good, _, rfl⟩
theorem test_witness_GoodStatesNeverFault : (live 0 false false 0 true).Inv := test_live_state_is_good
theorem test_witness_LfsrNewCreatesAZeroRegister :
    (0 < 1 ∧ ∀ p ∈ [0], p < 1) ∧ (∃ p ∈ [0, 1], 1 ≤ p) ∧ (0 = 0 ∨ ∃ p ∈ ([] : List Nat), 0 ≤ p) := by decide
theorem test_witness_LfsrSetReducesModuloTheWidth : (bench5 0).bench = some ⟨5, [2, 4], 0#5⟩ := by decide
theorem test_witness_LfsrGetReturnsTheLowBits :
    (bench5 0x1D).bench = some ⟨5, [2, 4], 0x1D#5⟩ ∧ 0 ≤ 5 ∧ 5 ≤ 5 ∧ 5 < 6 := by decide
theorem test_witness_LfsrClockIteratesTheStep : (bench5 0x0B).bench = some ⟨5, [2, 4], 0x0B#5⟩ := by decide
theorem test_witness_LfsrStepShiftsAndInsertsTheTapParity : 0 < 1 ∧ 0 < 5 ∧ 3 + 1 < 5 := by decide
theorem test_witness_LfsrClockComposes : (bench5 3).bench ≠ none := by decide
theorem test_witness_ZeroIsAFixedPointOfClocking :
    (bench5 0).bench = some ⟨5, [2, 4], 0#5⟩ ∧ (0#5 : BitVec 5) = 0#5 ∧ 0 < 1 := by decide
theorem test_witness_StepIsInjectiveExactlyWhenTheTopBitIsATap :
    4 ∈ [4, 2] ∧ 4 ∉ [3, 0] ∧ 0 ∈ [0] ∧ 0 ∉ ([] : List Nat) := by decide
theorem test_witness_PrngConfigWriteChecksMinValid :
    (4#3).toNat ≤ 4 ∧ (0#3).toNat ≤ 4 ∧ 4 < (5#3).toNat ∧ 4 < (7#3).toNat := by decide
theorem test_witness_RecoveryBitsAreSticky :
    Instr.prngClock 1 ≠ .reset ∧
      ∃ t, exec (.prngClock 1) { State.reset with prng :=
        ⟨⟨1, true⟩, ⟨1, true⟩, ⟨1, true⟩, ⟨1, true⟩, false, 0⟩ } = .next t := ⟨by decide, _, rfl⟩
theorem test_witness_CombinerIsNeverZero :
    (∃ t, exec (.prngSet 0 0) State.reset = .next t) ∧ State.reset.prng.lfsr0.state ≠ 0#47 ∧
      State.reset.prng.lfsr1.state ≠ 0#53 ∧ State.reset.prng.lfsr2.state ≠ 0#59 ∧
      State.reset.prng.lfsr3.state ≠ 0#61 := ⟨⟨_, rfl⟩, by decide⟩
theorem test_witness_TickStepsAllComponentsAtOnce :
    ¬((live 1 false false 2 true).wm.l.mode = 1#2 ∧ (live 1 false false 2 true).wm.l.subtype = true) := by
  decide
theorem test_witness_LatchedIllegalPatternFaults :
    (live 1 true false 0 true).wm.state = .running ∧ (live 1 true false 0 true).wm.l.mode = 1#2 ∧
      (live 1 true false 0 true).wm.l.subtype = true ∧
      Consumes (live 1 true false 0 true) (live 1 true false 0 true).wm.l.onlyValid :=
  ⟨rfl, rfl, rfl, .inl rfl⟩
theorem test_witness_TickKeepsComponentsApart :
    (∃ t, exec (.tick 3) (live 0 false false 0 true) = .next t) ∧
      (∃ t, exec (.tick 3) (live 2 true false 0 true) = .next t) ∧
      (live 0 false false 0 true).prng = (live 2 true false 0 true).prng ∧
      (live 0 false false 0 true).emux = (live 2 true false 0 true).emux :=
  ⟨⟨_, rfl⟩, ⟨_, rfl⟩, rfl, rfl⟩
theorem test_witness_ControlWriteRejectsTheIllegalPattern :
    IllegalWord 0x6000#16 ∧ IllegalWord 0x7FFF#16 := by unfold IllegalWord; decide
theorem test_witness_ControlWriteRejectsASourceChange :
    ¬IllegalWord 0x0000#16 ∧ SourceChange
      (onWm (fun m => { m with cfg := { m.cfg with continuous := true } }) (live 0 false false 0 true)) true := by
  unfold IllegalWord SourceChange; decide
theorem test_witness_RequestWhileRunningIsIgnored :
    ¬IllegalWord 0xC000#16 ∧ ¬SourceChange (live 0 false false 0 true) true ∧
      (live 0 false false 0 true).wm.state = .running := by unfold IllegalWord SourceChange; decide
theorem test_witness_ControlWriteStoresTheConfiguration :
    ¬IllegalWord 0x5FFF#16 ∧ ¬SourceChange State.reset true := by unfold IllegalWord SourceChange; decide
theorem test_witness_RequestArmsTheMonitor :
    ¬IllegalWord 0x8000#16 ∧
      (onWm (fun m => { m with cfg := { m.cfg with runLength := 1#32 } }) State.reset).wm.state ≠ .running ∧
      (onWm (fun m => { m with cfg := { m.cfg with runLength := 1#32 } }) State.reset).wm.cfg.runLength ≠
        0#32 := by unfold IllegalWord; decide
theorem test_witness_RequestWithZeroBudgetCompletesAtOnce :
    ¬IllegalWord 0x0000#16 ∧ State.reset.wm.state ≠ .running ∧ State.reset.wm.cfg.runLength = 0#32 := by
  unfold IllegalWord; decide
theorem test_witness_ReadsHaveNoSideEffects :
    isRead (.lfsrGet (some 3)) = true ∧ (∃ t, exec (.lfsrGet (some 3)) (bench5 7) = .next t) ∧
      isRead .prngRd = true ∧ (∃ t, exec .prngRd State.reset = .next t) :=
  ⟨rfl, ⟨_, rfl⟩, rfl, ⟨_, rfl⟩⟩
theorem test_witness_CountOnesCountsOnes :
    InForce (live 0 false true 0xAB true) 0#2 false true 0xAB#8 ∧ Consumes (live 0 false true 0xAB true) true :=
  ⟨⟨rfl, rfl, rfl, rfl, rfl⟩, .inr (by decide)⟩
theorem test_witness_CountTogglesCountsTransitions :
    InForce (live 0 true true 0 true) 0#2 true true 0#8 ∧ Consumes (live 0 true true 0 true) true :=
  ⟨⟨rfl, rfl, rfl, rfl, rfl⟩, .inr (by decide)⟩
theorem test_witness_RunLengthTracksRuns :
    InForce (live 1 false true 2 true) 1#2 false true 2#8 ∧ Consumes (live 1 false true 2 true) true :=
  ⟨⟨rfl, rfl, rfl, rfl, rfl⟩, .inr (by decide)⟩
theorem test_witness_NonOverlappingMatchRestartsTheWindow :
    InForce (live 2 false true 0x30 true) 2#2 false true 0x30#8 ∧ Consumes (live 2 false true 0x30 true) true :=
  ⟨⟨rfl, rfl, rfl, rfl, rfl⟩, .inr (by decide)⟩
theorem test_witness_OverlappingMatchComparesEveryWindow :
    InForce (live 2 true true 0x30 true) 2#2 true true 0x30#8 ∧ Consumes (live 2 true true 0x30 true) true :=
  ⟨⟨rfl, rfl, rfl, rfl, rfl⟩, .inr (by decide)⟩
theorem test_witness_ExcursionMaximaAreTracked :
    InForce (live 3 false true 0 true) 3#2 false true 0#8 ∧ Consumes (live 3 false true 0 true) true :=
  ⟨⟨rfl, rfl, rfl, rfl, rfl⟩, .inr (by decide)⟩
theorem test_witness_ExcursionHitsAreCounted :
    InForce (live 3 true true 0x80 true) 3#2 true true 0x80#8 ∧ Consumes (live 3 true true 0x80 true) true :=
  ⟨⟨rfl, rfl, rfl, rfl, rfl⟩, .inr (by decide)⟩
/-- RunLength: a run that ends at the threshold, above it, and one that goes on. -/
theorem test_witness_RunLengthTracksRuns_clauses :
    let s := onWm (fun m => { m with prevValid := true, run := 2#32 }) (live 1 false true 2 true)
    InForce s 1#2 false true 2#8 ∧ Consumes s true ∧ s.wm.prevValid = true ∧ sampledBit s ≠ s.wm.prevBit ∧
      s.wm.run.toNat = (2#8).toNat := ⟨⟨rfl, rfl, rfl, rfl, rfl⟩, .inr (by decide), by decide⟩
/-- TemplateMatch, non-overlapping: with a match and without one. -/
theorem test_witness_NonOverlappingMatchRestartsTheWindow_clauses :
    let s := onWm (fun m => { m with window := 0b011000#6, fill := 5#3 }) (live 2 false true 0x30 false)
    InForce s 2#2 false true 0x30#8 ∧ Consumes s true ∧
      (∃ k, templateIs s.wm (sampledBit s) 0x30#8 k = true) ∧
      ¬∃ k, templateIs (live 2 false true 0x30 false).wm false 0x30#8 k = true :=
  ⟨⟨rfl, rfl, rfl, rfl, rfl⟩, .inr (by decide), by decide, by decide⟩
theorem test_witness_PatternOutOfForceOrSkippedChangesNothing :
    ¬IllegalWord 0x1000#16 ∧ State.reset.wm.state ≠ .running ∧
      (live 1 false false 0 true).wm.l.word ≠ 0x1000#16 &&& 0xF0FF#16 ∧
      ({ live 0 false true 0 true with prng := comb 1 1 1 2 5 }).wm.l.onlyValid = true ∧
      (State.monitorInput Config.hw { live 0 false true 0 true with prng := comb 1 1 1 2 5 }).1 = false := by
  unfold IllegalWord; decide
theorem test_witness_CountdownCompletesAtZero :
    let m := (live 0 false false 0 true).wm
    m.remaining ≠ 1#32 ∧
      ({ m with remaining := 1#32 }.remaining = 1#32 ∧ m.cfg.continuous = false) ∧
      ({ m with remaining := 1#32, cfg := { m.cfg with continuous := true } }.cfg.continuous = true ∧
        m.l.runLength ≠ 0#32) := by decide
/-- One good state and operation for each clause: reset, an arming request, the last bit, another tick. -/
theorem test_witness_MonitorTransitionsFollowTheTable :
    (live 0 false false 0 true).Inv ∧ (∃ t, exec .reset (live 0 false false 0 true) = .next t) ∧
      ∃ t, exec (.tick 0) (live 0 false false 0 true) = .next t :=
  ⟨test_live_state_is_good, ⟨_, rfl⟩, _, rfl⟩
/-- The reset state with this much budget configured. -/
def budgeted (n : Word) : State :=
  onWm (fun m => { m with cfg := { m.cfg with runLength := n } }) State.reset
theorem test_budgeted_states_are_good : (budgeted 0).Inv ∧ (budgeted 1).Inv := by
  refine ⟨⟨?_, ?_, ?_⟩, ⟨?_, ?_, ?_⟩⟩
  all_goals first
    | (constructor <;> decide)
    | (intro L h; simp [budgeted, onWm, State.reset] at h)
theorem test_witness_MonitorTransitionsFollowTheTable_arms :
    (budgeted 0).Inv ∧ (budgeted 1).Inv ∧ Arms (.wmCtlwr true false false 0) (budgeted 0) ∧
      Arms (.wmCtlwr true false false 0) (budgeted 1) ∧
      ∃ t, exec (.wmCtlwr true false false 0) (budgeted 1) = .next t :=
  ⟨test_budgeted_states_are_good.1, test_budgeted_states_are_good.2,
    ⟨_, _, _, rfl, by unfold IllegalWord; decide, by decide⟩,
    ⟨_, _, _, rfl, by unfold IllegalWord; decide, by decide⟩, _, rfl⟩
/-- The live state with its last bit to come. -/
def lastBit : State := onWm (fun m => { m with remaining := 1#32 }) (live 0 false false 0 true)
theorem test_witness_MonitorTransitionsFollowTheTable_last_bit :
    lastBit.Inv ∧ EndsRun (.tick 0) lastBit ∧ EndsRun (.wmCountOnes false 0) lastBit ∧
      (∃ t, exec (.tick 0) lastBit = .next t) ∧ ∃ t, exec (.wmCountOnes false 0) lastBit = .next t where
  left :=
    { prng := ⟨by decide, by decide, by decide, by decide, by decide⟩
      wm := by constructor <;> decide
      bench := fun L h => by simp [lastBit, onWm, live, State.reset] at h }
  right :=
    ⟨⟨⟨.inl ⟨_, rfl⟩, rfl, .inl rfl⟩, rfl, rfl⟩, ⟨⟨.inr (by decide), rfl, .inl rfl⟩, rfl, rfl⟩, ⟨_, rfl⟩, _, rfl⟩
/-- A tick that neither resets, arms nor ends the run. -/
theorem test_witness_MonitorTransitionsFollowTheTable_keeps :
    Instr.tick 0 ≠ .reset ∧ ¬Arms (.tick 0) (live 0 false false 0 true) ∧
      ¬EndsRun (.tick 0) (live 0 false false 0 true) :=
  ⟨by decide, fun h => by simp [Arms] at h, fun h => by simp [EndsRun, live] at h⟩
theorem test_witness_RunningMonitorKeepsItsLatch :
    (live 0 false false 0 true).wm.state = .running ∧ Instr.tick 0 ≠ .reset ∧
      ∃ t, exec (.tick 0) (live 0 false false 0 true) = .next t := ⟨rfl, by decide, _, rfl⟩
theorem test_witness_CountersChangeOnlyWhileRunning :
    State.reset.wm.state ≠ .running ∧ (∃ t, exec (.tick 0) State.reset = .next t) ∧
      ∃ t, exec (.wmCtlwr true false false 0) State.reset = .next t := ⟨by decide, ⟨_, rfl⟩, _, rfl⟩
theorem test_witness_OperationsWriteOnlyTheirComponent :
    (∃ t, exec (.emuxDrive 3) State.reset = .next t) ∧ writesPrng (.emuxDrive 3) = false ∧
      writesWm (.emuxDrive 3) = false ∧ writesBench (.emuxDrive 3) = false ∧
      writesEmux (.prngClock 1) = false ∧ (∃ t, exec (.prngClock 1) State.reset = .next t) ∧
      writesBench .reset = false ∧ ∃ t, exec .reset (bench5 3) = .next t :=
  ⟨⟨_, rfl⟩, rfl, rfl, rfl, rfl, ⟨_, rfl⟩, rfl, _, rfl⟩
theorem test_witness_MonitorRunTakesExactlyItsBudgetInTicks :
    let s := live 0 false true 0 true
    s.wm.state = .running ∧ ¬(s.wm.l.mode = 1#2 ∧ s.wm.l.subtype = true) ∧ s.wm.cfg.continuous = false ∧
      s.wm.remaining ≠ 0#32 ∧ (live 0 false false 0 true).wm.l.onlyValid = false := by decide
/-- One tick takes a bit of a run on valid bits only, or is skipped. -/
theorem test_ticksTakingBits :
    ticksTakingBits [0#4] (live 0 false true 0 true) = 1 ∧
      ticksTakingBits [0#4] { live 0 false true 0 true with prng := comb 1 1 1 2 5 } = 0 := by decide

end Sys2Proof.Tests
end

section
/-! PROOFS. What one operation can do to the whole state, said once: `Effect`. Every claim about single
components follows from it by cases, and no later proof goes through the instructions again. -/

namespace Sys2Proof.Machine

open Sys2Proof.Claims

/-! ### The combiner changes by forcing writes -/

/-- `d` comes from `c` by some number of forcing writes. -/
def Channel.Forces {w : Nat} : Channel w → Channel w → Prop :=
  Relation.ReflTransGen fun c d => ∃ v, d = c.write v

theorem Channel.Forces.write {w : Nat} {c d : Channel w} (h : c.Forces d) (v : BitVec w) :
    c.Forces (d.write v) :=
  Relation.ReflTransGen.tail h ⟨v, rfl⟩

theorem Channel.Forces.clock {w : Nat} {c d : Channel w} (h : c.Forces d) (taps : List Nat) (n : Nat) :
    c.Forces (d.clock taps n) :=
  Channel.clock_induction c.Forces taps n d h fun _ v he => he.write v

theorem Channel.forces_mix {w : Nat} (taps : List Nat) (chunk : BitVec 16) (c : Channel w) :
    c.Forces (c.mix taps chunk) :=
  (Channel.Forces.write .refl _).clock taps mixClocks

theorem Channel.Forces.recovered {w : Nat} {c d : Channel w} (h : c.Forces d) (hc : c.recovered = true) :
    d.recovered = true := by
  induction h with
  | refl => exact hc
  | tail _ hstep ih =>
    obtain ⟨v, rfl⟩ := hstep
    exact Channel.write_recovered _ v ih

theorem Channel.Forces.state_ne_zero {w : Nat} {c d : Channel w} (h : c.Forces d) (hw : 0 < w)
    (hc : c.state ≠ 0#w) : d.state ≠ 0#w := by
  cases h with
  | refl => exact hc
  | tail _ hstep =>
    obtain ⟨v, rfl⟩ := hstep
    exact Channel.write_state_ne_zero hw _ v

/-- How the combiner evolves without a reset: forcing writes on its LFSRs, and `min_valid` stays legal. -/
structure Prng.Evolves (p q : Prng) : Prop where
  lfsr0 : p.lfsr0.Forces q.lfsr0
  lfsr1 : p.lfsr1.Forces q.lfsr1
  lfsr2 : p.lfsr2.Forces q.lfsr2
  lfsr3 : p.lfsr3.Forces q.lfsr3
  minValid : p.minValid ≤ 4#3 → q.minValid ≤ 4#3

theorem Prng.Evolves.refl (p : Prng) : p.Evolves p := ⟨.refl, .refl, .refl, .refl, id⟩

theorem Prng.Evolves.trans {p q r : Prng} (h : p.Evolves q) (k : q.Evolves r) : p.Evolves r :=
  ⟨h.lfsr0.trans k.lfsr0, h.lfsr1.trans k.lfsr1, h.lfsr2.trans k.lfsr2, h.lfsr3.trans k.lfsr3,
    k.minValid ∘ h.minValid⟩

/-- An operation on LFSR `i` that forces there evolves the combiner. -/
theorem Prng.evolves_onLfsr (C : Params) (i : Fin 4) (f : {w : Nat} → List Nat → Channel w → Channel w)
    (hf : ∀ {w : Nat} (taps : List Nat) (c : Channel w), c.Forces (f taps c)) (p : Prng) :
    p.Evolves (p.onLfsr C i f) := by
  match i with
  | 0 => exact { Evolves.refl p with lfsr0 := hf _ _ }
  | 1 => exact { Evolves.refl p with lfsr1 := hf _ _ }
  | 2 => exact { Evolves.refl p with lfsr2 := hf _ _ }
  | 3 => exact { Evolves.refl p with lfsr3 := hf _ _ }

theorem Prng.evolves_clock (C : Params) (n : Nat) (p : Prng) : p.Evolves (p.clock C n) where
  lfsr0 := Channel.Forces.clock .refl _ n
  lfsr1 := Channel.Forces.clock .refl _ n
  lfsr2 := Channel.Forces.clock .refl _ n
  lfsr3 := Channel.Forces.clock .refl _ n
  minValid := id

theorem Prng.evolves_tick (C : Params) (p : Prng) : p.Evolves (p.tick C) := by
  unfold Prng.tick
  split
  · exact p.evolves_clock C _
  · exact .refl p

theorem Prng.Evolves.mix {p q : Prng} (h : p.Evolves q) (C : Params) (i : Fin 4) (chunk : BitVec 16) :
    p.Evolves (q.mix C i chunk) :=
  h.trans (q.evolves_onLfsr C i _ fun taps c => c.forces_mix taps chunk)

theorem Prng.Evolves.seedOne {p q : Prng} (h : p.Evolves q) (C : Params) (i : Fin 4)
    (a b c d : BitVec 16) : p.Evolves (q.seedOne C i a b c d) :=
  (((h.mix C i a).mix C i b).mix C i c).mix C i d

theorem Prng.evolves_seed (C : Params) (chunks : SeedChunks) (p : Prng) : p.Evolves (p.seed C chunks) :=
  ((((Evolves.refl p).seedOne C 0 _ _ _ _).seedOne C 1 _ _ _ _).seedOne C 2 _ _ _ _).seedOne C 3 _ _ _ _

/-! ### The monitor's moves -/

/-- The update rule of each legal `(mode, subtype)` (44_whiteness_modes.md R220). -/
inductive PatternRule : BitVec 2 → Bool → (Bool → Monitor → Monitor) → Prop where
  | countOnes : PatternRule 0#2 false countOnes
  | countToggles : PatternRule 0#2 true countToggles
  | runLength : PatternRule 1#2 false runLength
  | templateNonOverlapping : PatternRule 2#2 false templateNonOverlapping
  | templateOverlapping : PatternRule 2#2 true templateOverlapping
  | excursionMax : PatternRule 3#2 false excursionMax
  | excursionHit : PatternRule 3#2 true excursionHit

/-- The latched rule is that of the latched pair: one row of R220's table per `(mode, subtype)`. -/
theorem Monitor.patternRule_of_latchedRule {m : Monitor} {rule : Bool → Monitor → Monitor}
    (h : m.latchedRule = some rule) : PatternRule m.l.mode m.l.subtype rule := by
  obtain ⟨mode, subtype, hmode, hsubtype⟩ : ∃ mode subtype, m.l.mode = mode ∧ m.l.subtype = subtype :=
    ⟨_, _, rfl, rfl⟩
  unfold Monitor.latchedRule at h
  rw [hmode, hsubtype] at h ⊢
  fin_cases mode <;> cases subtype <;> cases h <;> constructor

/-- What an operation other than reset may do to the monitor. -/
inductive Monitor.Moves (i : Instr) (m : Monitor) : Monitor → Prop where
  | stay : Moves i m m
  /-- A Running monitor consumes a bit under the latched pattern. -/
  | bit (rule : Bool → Monitor → Monitor) (b : Bool) (hrun : m.state = .running)
      (hrule : PatternRule m.l.mode m.l.subtype rule) : Moves i m ((m.update rule b).countDown Config.hw)
  /-- A write of the run length. -/
  | budget (v : Word) : Moves i m { m with cfg := { m.cfg with runLength := v } }
  /-- A control write without an accepted request. -/
  | store (continuous : Bool) (source : Source) (control : ControlWord)
      (hlegal : Control.illegal control = false) : Moves i m (m.storeControl continuous source control)
  /-- A control write with an accepted request. -/
  | arm (continuous source : Bool) (control : ControlWord)
      (hi : i = .wmCtlwr true continuous source control) (hlegal : Control.illegal control = false)
      (hidle : m.state ≠ .running) :
      Moves i m ((m.storeControl continuous (Source.ofBit source) control).arm Config.hw true)

theorem Monitor.moves_cycle {m : Monitor} {rule : Bool → Monitor → Monitor} (i : Instr) (valid b : Bool)
    (hrule : PatternRule m.l.mode m.l.subtype rule) : m.Moves i (m.cycle Config.hw rule valid b) := by
  obtain ⟨-, he⟩ | ⟨-, -, he⟩ | ⟨hrun, -, he⟩ := Monitor.cycle_cases rule valid b m
  · rw [he]; exact .stay
  · rw [he]; exact .stay
  · rw [he]; exact .bit rule b hrun hrule

theorem Monitor.moves_tick {s : State} {m : Monitor} (i : Instr) (h : s.tickMonitor Config.hw = some m) :
    s.wm.Moves i m := by
  obtain ⟨rule, hrule, rfl⟩ | ⟨-, rfl⟩ := tickMonitor_cases h
  · exact moves_cycle i _ _ (patternRule_of_latchedRule hrule)
  · exact .stay

/-! ### One operation on the whole state -/

/-- What operation `i` may do to the whole state `s`. -/
inductive Effect (i : Instr) (s : State) : State → Prop where
  /-- A read or a rejection: a result, nothing else. -/
  | reply (r : Reply) : Effect i s (s.withReply r)
  | prng (p : Prng) (r : Reply) (hi : writesPrng i = true) (hp : s.prng.Evolves p) :
      Effect i s ((s.withPrng p).withReply r)
  | emux (e : Emux) (r : Reply) (hi : writesEmux i = true) : Effect i s ((s.withEmux e).withReply r)
  | wm (m : Monitor) (r : Reply) (hi : writesWm i = true) (hm : s.wm.Moves i m) :
      Effect i s ((s.withWm m).withReply r)
  | bench (L : Lfsr) (r : Reply) (hi : writesBench i = true)
      (hL : (∀ K, s.bench = some K → K.Inv) → L.Inv) : Effect i s ((s.withBench (some L)).withReply r)
  | tick (x : BitVec 4) (m : Monitor) (e : Emux) (r : Reply) (hi : i = .tick x) (hm : s.wm.Moves i m) :
      Effect i s ((((s.withWm m).withPrng (s.prng.tick Config.hw)).withEmux e).withReply r)
  | reset (r : Reply) (hi : i = .reset) :
      Effect i s ((((s.withPrng Prng.reset).withEmux Emux.reset).withWm Monitor.reset).withReply r)

theorem raise_effect {i : Instr} {e : OpError} {s t : State} (h : raise e s = .next t) : Effect i s t :=
  raise_next h ▸ .reply _

/-- A pattern of a legal `(mode, subtype)` with its own rule moves the monitor only. -/
theorem runPattern_effect {i : Instr} {mode : BitVec 2} {subtype v : Bool} {d : BitVec 8}
    {rule : Bool → Monitor → Monitor} {s t : State} (hrule : PatternRule mode subtype rule)
    (hi : writesWm i = true) (h : runPattern mode subtype v d rule s = .next t) : Effect i s t := by
  rw [runPattern_eq] at h
  cases h
  refine .wm _ _ hi ?_
  split
  case isTrue hholds =>
    simp only [Monitor.holds, Bool.and_eq_true, decide_eq_true_eq, beq_iff_eq] at hholds
    obtain ⟨⟨⟨rfl, rfl⟩, -⟩, -⟩ := hholds
    exact Monitor.moves_cycle i _ _ hrule
  case isFalse => exact .stay

theorem wmCtlwr_effect {request continuous source : Bool} {control : ControlWord} {s t : State}
    (h : exec (.wmCtlwr request continuous source control) s = .next t) :
    Effect (.wmCtlwr request continuous source control) s t := by
  obtain ⟨-, he⟩ | ⟨-, -, -, -, he⟩ | ⟨hlegal, -, ⟨-, he⟩ | ⟨-, -, he⟩ | ⟨rfl, hidle, he⟩⟩ :=
    exec_wmCtlwr_cases request continuous source control s
  all_goals cases he.symm.trans h
  · exact .reply _
  · exact .reply _
  · exact .wm _ _ rfl (.store _ _ _ hlegal)
  · exact .wm _ _ rfl (.store _ _ _ hlegal)
  · exact .wm _ _ rfl (.arm _ _ _ rfl hlegal hidle)

/-- `LFSR.NEW` in its domain constructs a legal register (40_lfsr.md R110). -/
theorem Lfsr.inv_new {width : Nat} {taps : List Nat} (h : lfsrDomain width taps = true) :
    Lfsr.Inv ⟨width, tapSet width taps, 0#width⟩ where
  widthPos := by
    simp only [lfsrDomain, Bool.and_eq_true, decide_eq_true_eq] at h
    exact h.1
  tapsLegal p hp := List.mem_range.1 (List.mem_of_mem_filter hp)
  tapsAscending := List.pairwise_lt_range.filter _

/-- A register's legality does not depend on the value it holds. -/
theorem Lfsr.Inv.withState {L : Lfsr} (h : L.Inv) (v : BitVec L.width) : Lfsr.Inv { L with state := v } :=
  ⟨h.widthPos, h.tapsLegal, h.tapsAscending⟩

/-- Every operation that gives a next state has one of the effects. -/
theorem exec_effect {i : Instr} {s t : State} (h : exec i s = .next t) : Effect i s t := by
  cases i with
  | wmCountOnes v d => exact runPattern_effect .countOnes rfl h
  | wmCountToggles v d => exact runPattern_effect .countToggles rfl h
  | wmRunlen v d => exact runPattern_effect .runLength rfl h
  | wmIllegal v d => exact raise_effect h
  | wmTmatchNovl v d => exact runPattern_effect .templateNonOverlapping rfl h
  | wmTmatchOvl v d => exact runPattern_effect .templateOverlapping rfl h
  | wmMaxexcMax v d => exact runPattern_effect .excursionMax rfl h
  | wmMaxexcHit v d => exact runPattern_effect .excursionHit rfl h
  | lfsrNew width taps =>
    obtain ⟨hdomain, rfl⟩ := exec_lfsrNew_next h
    exact .bench _ _ rfl fun _ => Lfsr.inv_new hdomain
  | lfsrSet v =>
    obtain ⟨L, hL, rfl⟩ := exec_lfsrSet_next h
    exact .bench _ _ rfl fun hs => (hs L hL).withState _
  | lfsrGet k =>
    obtain ⟨_, -, -, rfl⟩ := exec_lfsrGet_next h
    exact .reply _
  | lfsrClock n =>
    obtain ⟨L, hL, rfl⟩ := exec_lfsrClock_next h
    exact .bench _ _ rfl fun hs => (hs L hL).withState _
  | prngSet j v =>
    exact finish_next h ▸ .prng _ _ rfl (s.prng.evolves_onLfsr _ j _ fun _ _ => .write .refl _)
  | prngClock n => exact finish_next h ▸ .prng _ _ rfl (s.prng.evolves_clock _ n)
  | prngGetvalue => exact finish_next h ▸ .reply _
  | prngMix j chunk => exact finish_next h ▸ .prng _ _ rfl ((Prng.Evolves.refl _).mix _ j chunk)
  | prngSeed chunks => exact finish_next h ▸ .prng _ _ rfl (s.prng.evolves_seed _ chunks)
  | prngCfgwr enable minValid =>
    rw [exec_prngCfgwr] at h
    split at h
    case isTrue => exact raise_effect h
    case isFalse hle =>
      exact finish_next h ▸ .prng _ _ rfl
        { Prng.Evolves.refl s.prng with minValid := fun _ => BitVec.not_lt.1 hle }
  | prngRd => exact finish_next h ▸ .reply _
  | emuxDrive x => exact finish_next h ▸ .emux _ _ rfl
  | wmCtlwr request continuous source control => exact wmCtlwr_effect h
  | wmRlwr v => exact finish_next h ▸ .wm _ _ rfl (.budget v)
  | wmRd0 => exact finish_next h ▸ .reply _
  | wmRd1 => exact finish_next h ▸ .reply _
  | statusRd => exact finish_next h ▸ .reply _
  | tick x =>
    obtain ⟨m, hm, rfl⟩ := exec_tick_next h
    exact .tick x m _ _ rfl (Monitor.moves_tick _ hm)
  | reset => exact finish_next h ▸ .reset _ rfl

theorem Effect.prng_cases {i : Instr} {s t : State} (h : Effect i s t) :
    s.prng.Evolves t.prng ∨ i = .reset ∧ t.prng = Prng.reset := by
  cases h with
  | prng _ _ _ hp => exact .inl hp
  | tick => exact .inl (s.prng.evolves_tick _)
  | reset _ hi => exact .inr ⟨hi, rfl⟩
  | reply | emux | wm | bench => exact .inl (.refl s.prng)

theorem Effect.wm_cases {i : Instr} {s t : State} (h : Effect i s t) :
    s.wm.Moves i t.wm ∨ i = .reset ∧ t.wm = Monitor.reset := by
  cases h with
  | wm _ _ _ hm => exact .inl hm
  | tick _ _ _ _ _ hm => exact .inl hm
  | reset _ hi => exact .inr ⟨hi, rfl⟩
  | reply | prng | emux | bench => exact .inl .stay

/-- Every operation keeps the free-standing register legal. -/
theorem Effect.bench_inv {i : Instr} {s t : State} (h : Effect i s t)
    (hs : ∀ L, s.bench = some L → L.Inv) : ∀ L, t.bench = some L → L.Inv := by
  cases h with
  | bench L _ _ hL =>
    rintro _ ⟨⟩
    exact hL hs
  | reply | prng | emux | wm | tick | reset => exact hs

/-- The frame of an effect: a component the operation does not write, the inbox and the draw counter stay. -/
theorem Effect.frame {i : Instr} {s t : State} (h : Effect i s t) :
    (writesPrng i = false → t.prng = s.prng) ∧ (writesEmux i = false → t.emux = s.emux) ∧
    (writesWm i = false → t.wm = s.wm) ∧ (writesBench i = false → t.bench = s.bench) ∧
    t.inbox = s.inbox ∧ t.draws = s.draws := by
  cases h with
  | reply => simp
  | prng _ _ hi => simp [hi]
  | emux _ _ hi => simp [hi]
  | wm _ _ hi => simp [hi]
  | bench _ _ hi => simp [hi]
  | tick _ _ _ _ hi => simp [hi, writesPrng, writesEmux, writesWm]
  | reset _ hi => simp [hi, writesPrng, writesEmux, writesWm]

/-- Settles O29: without a reset every combiner LFSR changes by forcing writes only. -/
theorem recoveryBitsAreSticky : Obligations.RecoveryBitsAreSticky := by
  intro i s t hi h
  obtain hp | ⟨hreset, -⟩ := (exec_effect h).prng_cases
  · exact ⟨hp.lfsr0.recovered, hp.lfsr1.recovered, hp.lfsr2.recovered, hp.lfsr3.recovered⟩
  · exact absurd hreset hi

/-- Settles O30: a forcing write never leaves zero, and reset gives the LFSRs the value 1. -/
theorem combinerIsNeverZero : Obligations.CombinerIsNeverZero := by
  intro i s t h
  obtain hp | ⟨-, hp⟩ := (exec_effect h).prng_cases
  · exact ⟨hp.lfsr0.state_ne_zero (by decide), hp.lfsr1.state_ne_zero (by decide),
      hp.lfsr2.state_ne_zero (by decide), hp.lfsr3.state_ne_zero (by decide)⟩
  · rw [hp]
    exact ⟨fun _ => by decide, fun _ => by decide, fun _ => by decide, fun _ => by decide⟩

/-- Settles O34: the combiner's and the mux's parts of a tick are functions of the component (and the
sample). -/
theorem tickKeepsComponentsApart : Obligations.TickKeepsComponentsApart := by
  intro x y s s' t t' h h'
  obtain ⟨m, -, rfl⟩ := exec_tick_next h
  obtain ⟨m', -, rfl⟩ := exec_tick_next h'
  exact ⟨congrArg (Prng.tick Config.hw), congrArg₂ (Emux.drive Config.hw)⟩

/-- Settles O59 by the frame of the effects. -/
theorem operationsWriteOnlyTheirComponent : Obligations.OperationsWriteOnlyTheirComponent :=
  fun _ _ _ h => (exec_effect h).frame

end Sys2Proof.Machine
end

section
/-! PROOFS. The monitor's invariants in three layers (legal words, the countdown, the bounds of its
registers), what the update rules and the countdown do to each, and that every step keeps them. -/

namespace Sys2Proof.Machine

open Sys2Proof.Claims

/-! ### The invariants in layers -/

/-- Upper bounds of the monitor's counters and hidden registers. -/
structure RegisterBounds where
  c0 : Nat
  c1 : Nat
  c2 : Nat
  c3 : Nat
  run : Nat
  window : Nat
  fill : Nat
  sum : Nat

/-- The bounds after `n` consumed bits under a mode; what the mode does not use is bounded by 0
(44_whiteness_modes.md R220, R231, R232). -/
def RegisterBounds.ofMode (mode : BitVec 2) (n : Nat) : RegisterBounds where
  c0 := n
  c1 := if mode = 0#2 ∨ mode = 3#2 then 0 else n
  c2 := if mode = 0#2 then 0 else n
  c3 := if mode = 0#2 then 0 else n
  run := if mode = 1#2 then n else 0
  window := if mode = 2#2 then 63 else 0
  fill := if mode = 2#2 then 6 else 0
  sum := if mode = 3#2 then n else 0

/-- The counters and hidden registers are within the bounds. -/
structure Monitor.Within (m : Monitor) (B : RegisterBounds) : Prop where
  c0 : m.counters.c0.toNat ≤ B.c0
  c1 : m.counters.c1.toNat ≤ B.c1
  c2 : m.counters.c2.toNat ≤ B.c2
  c3 : m.counters.c3.toNat ≤ B.c3
  run : m.run.toNat ≤ B.run
  window : m.window.toNat ≤ B.window
  fill : m.fill.toNat ≤ B.fill
  sum : m.sum.toInt.natAbs ≤ B.sum

/-- The stored and the latched control word are legal (30_encoding.md R82, R85). -/
structure Monitor.Legal (m : Monitor) : Prop where
  reservedZero : m.cfg.control &&& 0x0F00#16 = 0#16
  controlLegal : Control.illegal m.cfg.control = false
  latchLegal : ¬(m.l.mode = 1#2 ∧ m.l.subtype = true)

/-- The countdown agrees with the state and the latched budget. -/
structure Monitor.Budget (m : Monitor) : Prop where
  idleClear : m.state = .idle → m.remaining = 0#32 ∧ m.l.runLength = 0#32 ∧ m.resultValid = false
  runningBudget : m.state = .running → m.remaining ≠ 0#32
  doneResult : m.state = .done → m.remaining = 0#32 ∧ m.resultValid = true
  remainingBound : m.remaining ≤ m.l.runLength

theorem Monitor.Inv.legal {m : Monitor} (h : m.Inv) : m.Legal :=
  ⟨h.reservedZero, h.controlLegal, h.latchLegal⟩

/-- Legality reads the configuration and the latch only. -/
theorem Monitor.Legal.congr {m m' : Monitor} (h : m.Legal) (hcfg : m'.cfg = m.cfg) (hl : m'.l = m.l) :
    m'.Legal where
  reservedZero := hcfg ▸ h.reservedZero
  controlLegal := hcfg ▸ h.controlLegal
  latchLegal := hl ▸ h.latchLegal

theorem Monitor.Inv.within {m : Monitor} (h : m.Inv) : m.Within (.ofMode m.l.mode m.consumed) where
  c0 := h.c0Bound
  c1 := by
    dsimp only [RegisterBounds.ofMode]
    split
    case isTrue hm => simp [hm.elim (fun hm => (h.countUnused hm).1) h.excursionUnused]
    case isFalse => exact h.c1Bound
  c2 := by
    dsimp only [RegisterBounds.ofMode]
    split
    case isTrue hm => simp [(h.countUnused hm).2.1]
    case isFalse => exact h.c2Bound
  c3 := by
    dsimp only [RegisterBounds.ofMode]
    split
    case isTrue hm => simp [(h.countUnused hm).2.2]
    case isFalse => exact h.c3Bound
  run := by
    dsimp only [RegisterBounds.ofMode]
    split
    case isTrue => exact h.runBound
    case isFalse hm => simp [h.runUnused hm]
  window := by
    dsimp only [RegisterBounds.ofMode]
    split
    case isTrue => omega
    case isFalse hm => simp [(h.windowUnused hm).1]
  fill := by
    dsimp only [RegisterBounds.ofMode]
    split
    case isTrue => exact h.fillBound
    case isFalse hm => simp [(h.windowUnused hm).2]
  sum := by
    dsimp only [RegisterBounds.ofMode]
    split
    case isTrue => exact h.sumBound
    case isFalse hm => simp [h.sumUnused hm]

/-- No bound exceeds the number of bits consumed, but for the window and its fill. -/
theorem RegisterBounds.ofMode_le (mode : BitVec 2) (n : Nat) :
    (ofMode mode n).c1 ≤ n ∧ (ofMode mode n).c2 ≤ n ∧ (ofMode mode n).c3 ≤ n ∧
    (ofMode mode n).run ≤ n ∧ (ofMode mode n).fill ≤ 6 ∧ (ofMode mode n).sum ≤ n := by
  simp only [RegisterBounds.ofMode]
  split_ifs <;> simp

theorem Monitor.inv_of_layers {m : Monitor} (hl : m.Legal) (hb : m.Budget)
    (hw : m.Within (.ofMode m.l.mode m.consumed)) : m.Inv := by
  obtain ⟨h1, h2, h3, hrun, hfill, hsum⟩ := RegisterBounds.ofMode_le m.l.mode m.consumed
  exact {
    hl, hb with
    fillBound := hw.fill.trans hfill
    c0Bound := hw.c0
    c1Bound := hw.c1.trans h1
    c2Bound := hw.c2.trans h2
    c3Bound := hw.c3.trans h3
    runBound := hw.run.trans hrun
    sumBound := hw.sum.trans hsum
    countUnused := fun hm => by
      simpa [RegisterBounds.ofMode, hm, ← BitVec.toNat_inj] using And.intro hw.c1 (And.intro hw.c2 hw.c3)
    excursionUnused := fun hm => by simpa [RegisterBounds.ofMode, hm, ← BitVec.toNat_inj] using hw.c1
    runUnused := fun hm => by simpa [RegisterBounds.ofMode, hm, ← BitVec.toNat_inj] using hw.run
    windowUnused := fun hm => by
      simpa [RegisterBounds.ofMode, hm, ← BitVec.toNat_inj] using And.intro hw.window hw.fill
    sumUnused := fun hm => by simpa [RegisterBounds.ofMode, hm, ← BitVec.toInt_inj] using hw.sum }

/-! ### What the primitives of the update rules do to the bounds -/

theorem RegisterBounds.ofMode_mono (mode : BitVec 2) {n k : Nat} (hnk : n ≤ k) :
    (ofMode mode n).c1 ≤ (ofMode mode k).c1 ∧ (ofMode mode n).c2 ≤ (ofMode mode k).c2 ∧
    (ofMode mode n).c3 ≤ (ofMode mode k).c3 ∧ (ofMode mode n).run ≤ (ofMode mode k).run ∧
    (ofMode mode n).sum ≤ (ofMode mode k).sum := by
  simp only [RegisterBounds.ofMode]
  split_ifs <;> simp [hnk]

theorem Monitor.Within.mono {m : Monitor} {mode : BitVec 2} {n k : Nat} (h : m.Within (.ofMode mode n))
    (hnk : n ≤ k) : m.Within (.ofMode mode k) := by
  obtain ⟨h1, h2, h3, hrun, hsum⟩ := RegisterBounds.ofMode_mono mode hnk
  exact ⟨h.c0.trans hnk, h.c1.trans h1, h.c2.trans h2, h.c3.trans h3, h.run.trans hrun, h.window, h.fill,
    h.sum.trans hsum⟩

/-- A 32-bit counter that goes up by one stays within a larger bound, whether it wraps or not. -/
theorem toNat_add_one_le {c : BitVec 32} {n : Nat} (h : c.toNat < n) : (c + 1#32).toNat ≤ n := by
  rw [BitVec.toNat_add]
  exact (Nat.mod_le _ _).trans h

theorem toNat_umax_le {a b : BitVec 32} {n : Nat} (ha : a.toNat ≤ n) (hb : b.toNat ≤ n) :
    (umax a b).toNat ≤ n := by
  unfold umax
  split <;> assumption

section
variable {m : Monitor} {B : RegisterBounds} (h : m.Within B)
include h

theorem Monitor.Within.bump0 (hlt : m.counters.c0.toNat < B.c0) : m.bump0.Within B :=
  { h with c0 := toNat_add_one_le hlt }

theorem Monitor.Within.bump1 (hlt : m.counters.c1.toNat < B.c1) : m.bump1.Within B :=
  { h with c1 := toNat_add_one_le hlt }

theorem Monitor.Within.bump2 (hlt : m.counters.c2.toNat < B.c2) : m.bump2.Within B :=
  { h with c2 := toNat_add_one_le hlt }

theorem Monitor.Within.bump3 (hlt : m.counters.c3.toNat < B.c3) : m.bump3.Within B :=
  { h with c3 := toNat_add_one_le hlt }

theorem Monitor.Within.raise2 {v : BitVec 32} (hv : v.toNat ≤ B.c2) : (m.raise2 v).Within B :=
  { h with c2 := toNat_umax_le h.c2 hv }

theorem Monitor.Within.raise3 {v : BitVec 32} (hv : v.toNat ≤ B.c3) : (m.raise3 v).Within B :=
  { h with c3 := toNat_umax_le h.c3 hv }

theorem Monitor.magnitude_le : m.magnitude.toNat ≤ B.sum := by
  rw [Monitor.magnitude, BitVec.toNat_ofNat]
  exact (Nat.mod_le _ _).trans h.sum

end

/-! ### The update rules, one bit each -/

section
variable {m : Monitor} {n : Nat} (b : Bool)

theorem countOnes_within (h : m.Within (.ofMode 0#2 n)) : (countOnes b m).Within (.ofMode 0#2 (n + 1)) := by
  have hmono := h.mono n.le_succ
  unfold countOnes
  split
  · exact hmono.bump0 (Nat.lt_succ_of_le h.c0)
  · exact hmono

theorem countToggles_within (h : m.Within (.ofMode 0#2 n)) :
    (countToggles b m).Within (.ofMode 0#2 (n + 1)) := by
  have hmono := h.mono n.le_succ
  unfold countToggles
  split
  · exact hmono.bump0 (Nat.lt_succ_of_le h.c0)
  · exact hmono

theorem Monitor.closeRun_within (h : m.Within (.ofMode 1#2 n)) :
    m.closeRun.Within (.ofMode 1#2 (n + 1)) := by
  have hmono := h.mono n.le_succ
  unfold Monitor.closeRun
  split
  · exact hmono.bump0 (Nat.lt_succ_of_le h.c0)
  · split
    · exact hmono.bump1 (Nat.lt_succ_of_le h.c1)
    · exact hmono

theorem Monitor.trackRun_within (h : m.Within (.ofMode 1#2 n)) :
    (m.trackRun b).Within (.ofMode 1#2 (n + 1)) := by
  have hmono := h.mono n.le_succ
  unfold Monitor.trackRun
  split
  · exact { hmono with run := toNat_add_one_le (Nat.lt_succ_of_le h.run) }
  · split
    · exact { Monitor.closeRun_within h with run := Nat.le_add_left 1 n }
    · exact { hmono with run := Nat.le_add_left 1 n }

/-- The run before its newest bit is no longer than the bits consumed before it. -/
theorem Monitor.trackRun_run_sub_one_le (h : m.Within (.ofMode 1#2 n)) :
    ((m.trackRun b).run - 1#32).toNat ≤ n := by
  unfold Monitor.trackRun
  split
  · simpa [RegisterBounds.ofMode] using h.run
  · simp

theorem runLength_within (h : m.Within (.ofMode 1#2 n)) : (runLength b m).Within (.ofMode 1#2 (n + 1)) := by
  have hrun := (Monitor.trackRun_run_sub_one_le b h).trans n.le_succ
  unfold runLength
  dsimp only
  split
  · exact (Monitor.trackRun_within b h).raise3 hrun
  · exact (Monitor.trackRun_within b h).raise2 hrun

theorem Monitor.shiftWindow_within (h : m.Within (.ofMode 2#2 n)) :
    (m.shiftWindow b).Within (.ofMode 2#2 n) :=
  { h with
    window := Nat.le_of_lt_succ (BitVec.isLt _)
    fill := (Nat.mod_le _ _).trans (Nat.min_le_right _ 6) }

theorem Monitor.bumpTemplate_within (h : m.Within (.ofMode 2#2 n)) :
    m.bumpTemplate.Within (.ofMode 2#2 (n + 1)) := by
  have hmono := h.mono n.le_succ
  unfold Monitor.bumpTemplate
  split
  · exact hmono.bump0 (Nat.lt_succ_of_le h.c0)
  · exact hmono.bump1 (Nat.lt_succ_of_le h.c1)
  · exact hmono.bump2 (Nat.lt_succ_of_le h.c2)
  · exact hmono.bump3 (Nat.lt_succ_of_le h.c3)

theorem templateOverlapping_within (h : m.Within (.ofMode 2#2 n)) :
    (templateOverlapping b m).Within (.ofMode 2#2 (n + 1)) := by
  have hshift := Monitor.shiftWindow_within b h
  unfold templateOverlapping
  dsimp only
  split
  · exact Monitor.bumpTemplate_within hshift
  · exact hshift.mono n.le_succ

theorem templateNonOverlapping_within (h : m.Within (.ofMode 2#2 n)) :
    (templateNonOverlapping b m).Within (.ofMode 2#2 (n + 1)) := by
  have hshift := Monitor.shiftWindow_within b h
  unfold templateNonOverlapping
  dsimp only
  split
  · exact { Monitor.bumpTemplate_within hshift with fill := Nat.zero_le 6 }
  · exact hshift.mono n.le_succ

/-- The balanced residue is the representative of least magnitude. -/
theorem natAbs_bmod_le (x : Int) {k : Nat} (hk : 0 < k) : (x.bmod k).natAbs ≤ x.natAbs := by
  by_cases hx : -((k : Int) / 2) ≤ x ∧ x < ((k : Int) + 1) / 2
  · rw [Int.bmod_eq_of_le hx.1 hx.2]
  · have hlt := Int.bmod_lt (x := x) hk
    have hle := Int.le_bmod (x := x) hk
    omega

/-- The excursion moves by one at most, whether the 33-bit sum wraps or not. -/
theorem Monitor.movedSum_natAbs_le (m : Monitor) :
    (m.movedSum b).toInt.natAbs ≤ m.sum.toInt.natAbs + 1 := by
  unfold Monitor.movedSum
  split
  · rw [BitVec.toInt_add]
    exact (natAbs_bmod_le _ (by decide)).trans (Int.natAbs_add_le _ _)
  · rw [BitVec.toInt_sub]
    exact (natAbs_bmod_le _ (by decide)).trans (Int.natAbs_sub_le _ _)

theorem Monitor.moveSum_within (h : m.Within (.ofMode 3#2 n)) :
    (m.moveSum b).Within (.ofMode 3#2 (n + 1)) := by
  have hmono := h.mono n.le_succ
  have hsum : (m.movedSum b).toInt.natAbs ≤ n + 1 :=
    (m.movedSum_natAbs_le b).trans (Nat.add_le_add_right h.sum 1)
  unfold Monitor.moveSum
  split
  · exact { hmono.bump0 (Nat.lt_succ_of_le h.c0) with sum := hsum }
  · exact { hmono with sum := hsum }

theorem Monitor.moveSum_c2_c3 (m : Monitor) :
    (m.moveSum b).counters.c2 = m.counters.c2 ∧ (m.moveSum b).counters.c3 = m.counters.c3 := by
  unfold Monitor.moveSum
  split <;> exact ⟨rfl, rfl⟩

theorem excursionMax_within (h : m.Within (.ofMode 3#2 n)) :
    (excursionMax b m).Within (.ofMode 3#2 (n + 1)) := by
  have hmove := Monitor.moveSum_within b h
  unfold excursionMax
  dsimp only
  split
  · exact hmove.raise2 (Monitor.magnitude_le hmove)
  · split
    · exact hmove.raise3 (Monitor.magnitude_le hmove)
    · exact hmove

theorem excursionHit_within (h : m.Within (.ofMode 3#2 n)) :
    (excursionHit b m).Within (.ofMode 3#2 (n + 1)) := by
  have hmove := Monitor.moveSum_within b h
  obtain ⟨hc2, hc3⟩ := m.moveSum_c2_c3 b
  have hlt2 : (m.moveSum b).counters.c2.toNat < n + 1 := hc2 ▸ Nat.lt_succ_of_le h.c2
  have hlt3 : (m.moveSum b).counters.c3.toNat < n + 1 := hc3 ▸ Nat.lt_succ_of_le h.c3
  unfold excursionHit
  dsimp only
  split
  · split
    · exact (hmove.bump2 hlt2).bump3 hlt3
    · exact hmove.bump3 hlt3
  · split
    · exact hmove.bump2 hlt2
    · exact hmove

/-- One consumed bit moves the bounds of the mode in force by one. -/
theorem PatternRule.within {mode : BitVec 2} {subtype : Bool} {rule : Bool → Monitor → Monitor}
    (hrule : PatternRule mode subtype rule) (h : m.Within (.ofMode mode n)) :
    (rule b m).Within (.ofMode mode (n + 1)) := by
  cases hrule with
  | countOnes => exact countOnes_within b h
  | countToggles => exact countToggles_within b h
  | runLength => exact runLength_within b h
  | templateNonOverlapping => exact templateNonOverlapping_within b h
  | templateOverlapping => exact templateOverlapping_within b h
  | excursionMax => exact excursionMax_within b h
  | excursionHit => exact excursionHit_within b h

end

/-! ### What the update rules and the countdown leave alone -/

/-- An update rule writes counters and hidden registers, nothing of the control part. -/
def Monitor.SameControl (m m' : Monitor) : Prop :=
  m'.cfg = m.cfg ∧ m'.l = m.l ∧ m'.state = m.state ∧ m'.remaining = m.remaining

theorem Monitor.bumpTemplate_sameControl (m : Monitor) : m.SameControl m.bumpTemplate := by
  unfold Monitor.bumpTemplate
  split <;> exact ⟨rfl, rfl, rfl, rfl⟩

theorem Monitor.moveSum_sameControl (b : Bool) (m : Monitor) : m.SameControl (m.moveSum b) := by
  unfold Monitor.moveSum
  split <;> exact ⟨rfl, rfl, rfl, rfl⟩

theorem sameControl_of_patternRule {mode : BitVec 2} {subtype : Bool} {rule : Bool → Monitor → Monitor}
    (hrule : PatternRule mode subtype rule) (b : Bool) (m : Monitor) : m.SameControl (rule b m) := by
  cases hrule with
  | countOnes =>
    unfold countOnes
    split <;> exact ⟨rfl, rfl, rfl, rfl⟩
  | countToggles =>
    unfold countToggles
    split <;> exact ⟨rfl, rfl, rfl, rfl⟩
  | runLength =>
    unfold runLength Monitor.trackRun Monitor.closeRun
    split_ifs <;> exact ⟨rfl, rfl, rfl, rfl⟩
  | templateNonOverlapping =>
    unfold templateNonOverlapping
    dsimp only
    split
    · exact (m.shiftWindow b).bumpTemplate_sameControl
    · exact ⟨rfl, rfl, rfl, rfl⟩
  | templateOverlapping =>
    unfold templateOverlapping
    dsimp only
    split
    · exact (m.shiftWindow b).bumpTemplate_sameControl
    · exact ⟨rfl, rfl, rfl, rfl⟩
  | excursionMax =>
    unfold excursionMax
    dsimp only
    split_ifs <;> exact m.moveSum_sameControl b
  | excursionHit =>
    unfold excursionHit
    dsimp only
    split_ifs <;> exact m.moveSum_sameControl b

theorem Monitor.clearRun_within (m : Monitor) (B : RegisterBounds) : m.clearRun.Within B := by
  constructor <;> simp [Monitor.clearRun, Counters.zero]

/-- The arm step after the latch: the monitor is good whatever its registers held (43_whiteness_control.md
R182, R183). -/
theorem Monitor.Legal.inv_enterRun {m : Monitor} (hl : m.Legal) :
    ((m.clearRun).enterRun Config.hw).Inv := by
  unfold Monitor.enterRun
  split
  case isTrue h0 =>
    exact inv_of_layers (hl.congr rfl rfl)
      ⟨nofun, nofun, fun _ => ⟨h0, rfl⟩, BitVec.le_refl _⟩ { m.clearRun_within _ with }
  case isFalse hne =>
    exact inv_of_layers (hl.congr rfl rfl)
      ⟨nofun, fun _ => hne, nofun, BitVec.le_refl _⟩ { m.clearRun_within _ with }

/-- The countdown after an update: the bit just consumed is accounted for, and a completed run ends Done or is
armed again (R186, R188, R189). -/
theorem Monitor.Legal.inv_countDown {m : Monitor} (hl : m.Legal) (hrun : m.state = .running)
    (hne : m.remaining ≠ 0#32) (hle : m.remaining ≤ m.l.runLength)
    (hw : m.Within (.ofMode m.l.mode (m.consumed + 1))) : (m.countDown Config.hw).Inv := by
  have hle' : m.remaining - 1#32 ≤ m.l.runLength := by bv_omega
  have hconsumed : m.l.runLength.toNat - (m.remaining - 1#32).toNat = m.consumed + 1 := by
    unfold Monitor.consumed
    bv_omega
  rw [← hconsumed] at hw
  unfold Monitor.countDown Monitor.complete
  dsimp only
  split
  case isTrue h0 =>
    split
    · exact Legal.inv_enterRun (hl.congr rfl rfl)
    · exact inv_of_layers (hl.congr rfl rfl) ⟨nofun, nofun, fun _ => ⟨h0, rfl⟩, hle'⟩ { hw with }
  case isFalse h0 =>
    have hidle : m.state ≠ .idle := by simp [hrun]
    have hdone : m.state ≠ .done := by simp [hrun]
    exact inv_of_layers (hl.congr rfl rfl)
      ⟨fun h => absurd h hidle, fun _ => h0, fun h => absurd h hdone, hle'⟩ { hw with }

/-! ### Every move of the monitor keeps its invariants -/

theorem storedControl_reserved (c : ControlWord) : storedControl c &&& 0x0F00#16 = 0#16 := by
  rw [storedControl, BitVec.and_assoc]
  exact BitVec.and_zero

/-- The bits a control write drops do not decide the pattern (30_encoding.md R82). -/
theorem illegal_storedControl (c : ControlWord) : Control.illegal (storedControl c) = Control.illegal c := by
  have hmode : Control.mode (storedControl c) = Control.mode c := by
    ext j hj
    have : j = 0 ∨ j = 1 := by omega
    rcases this with rfl | rfl <;> simp [Control.mode, storedControl]
  have hsubtype : Control.subtype (storedControl c) = Control.subtype c := by
    simp [Control.subtype, storedControl]
  rw [Control.illegal, Control.illegal, hmode, hsubtype]

theorem Monitor.Inv.storeControl {m : Monitor} (h : m.Inv) (continuous : Bool) (source : Source)
    {control : ControlWord} (hlegal : Control.illegal control = false) :
    (m.storeControl continuous source control).Inv :=
  { h with
    reservedZero := storedControl_reserved control
    controlLegal := (illegal_storedControl control).trans hlegal }

/-- A latch of a legal configuration is legal (43_whiteness_control.md R182). -/
theorem Monitor.Inv.legal_latch {m : Monitor} (h : m.Inv) : m.latch.Legal where
  reservedZero := h.reservedZero
  controlLegal := h.controlLegal
  latchLegal := by simpa [Control.illegal, Monitor.latch, MonitorLatch.ofConfig] using h.controlLegal

theorem Monitor.Inv.update_countDown {m : Monitor} {rule : Bool → Monitor → Monitor} (h : m.Inv)
    (hrun : m.state = .running) (hrule : PatternRule m.l.mode m.l.subtype rule) (b : Bool) :
    ((m.update rule b).countDown Config.hw).Inv := by
  have hw := hrule.within b h.within
  obtain ⟨hcfg, hl, hstate, hrem⟩ := sameControl_of_patternRule hrule b m
  have hc : (m.update rule b).consumed = m.consumed := by
    simp [Monitor.consumed, Monitor.update, hl, hrem]
  apply Legal.inv_countDown
  · exact h.legal.congr hcfg hl
  · exact hstate.trans hrun
  · exact hrem.trans_ne (h.runningBudget hrun)
  · simpa [Monitor.update, hl, hrem] using h.remainingBound
  · rw [hc, Monitor.update, hl]
    exact { hw with }

theorem Monitor.Inv.moves {i : Instr} {m m' : Monitor} (h : m.Inv) (hm : m.Moves i m') : m'.Inv := by
  cases hm with
  | stay => exact h
  | bit _ b hrun hrule => exact h.update_countDown hrun hrule b
  | budget v => exact { h with }
  | store continuous source _ hlegal => exact h.storeControl continuous source hlegal
  | arm continuous source _ _ hlegal =>
    exact (h.storeControl continuous (Source.ofBit source) hlegal).legal_latch.inv_enterRun

/-! ### Reset, and every step -/

theorem Prng.inv_reset : Prng.reset.Inv := by constructor <;> decide

theorem Monitor.inv_reset : Monitor.reset.Inv :=
  inv_of_layers (by constructor <;> decide) (by constructor <;> decide) (by constructor <;> decide)

/-- Forcing writes keep the combiner non-zero, and its configuration stays legal. -/
theorem Prng.Inv.evolves {p q : Prng} (h : p.Inv) (he : p.Evolves q) : q.Inv where
  nonzero0 := he.lfsr0.state_ne_zero (by decide) h.nonzero0
  nonzero1 := he.lfsr1.state_ne_zero (by decide) h.nonzero1
  nonzero2 := he.lfsr2.state_ne_zero (by decide) h.nonzero2
  nonzero3 := he.lfsr3.state_ne_zero (by decide) h.nonzero3
  minValid := he.minValid h.minValid

theorem State.Inv.effect {i : Instr} {s t : State} (h : s.Inv) (he : Effect i s t) : t.Inv where
  prng := by
    obtain hp | ⟨-, hp⟩ := he.prng_cases
    · exact h.prng.evolves hp
    · exact hp ▸ Prng.inv_reset
  wm := by
    obtain hm | ⟨-, hm⟩ := he.wm_cases
    · exact h.wm.moves hm
    · exact hm ▸ Monitor.inv_reset
  bench := he.bench_inv h.bench

/-- Taking a request changes the inbox or the draw counter, no component. -/
theorem State.Inv.fetch {s : State} (h : s.Inv) : s.fetch.2.Inv := by
  unfold State.fetch
  split <;> exact { h with }

/-- A step that gives a next state runs an operation on the state once the request is taken. -/
theorem step_next {s t : State} (h : step s = .next t) : ∃ i, exec i s.fetch.2 = .next t := by
  unfold step at h
  split at h
  · exact ⟨_, h⟩
  · cases h

/-- Settles O11: a step is a fetch and one operation's effect, and both keep the invariants. -/
theorem everyStepKeepsTheInvariants : Obligations.EveryStepKeepsTheInvariants := by
  intro s t hs h
  obtain ⟨i, hexec⟩ := step_next h
  exact hs.fetch.effect (exec_effect hexec)

/-- Settles O57: neither the update rules nor the countdown, a re-arm included, write the latch. -/
theorem runningMonitorKeepsItsLatch : Obligations.RunningMonitorKeepsItsLatch := by
  intro i s t hrun hi h
  obtain hm | ⟨hreset, -⟩ := (exec_effect h).wm_cases
  · generalize t.wm = m' at hm ⊢
    cases hm with
    | stay | budget | store => rfl
    | bit rule b _ hrule =>
      obtain ⟨-, hl, -, -⟩ := sameControl_of_patternRule hrule b s.wm
      exact (Monitor.countDown_cfg_l _ _).2.trans hl
    | arm _ _ _ _ _ hidle => exact absurd hrun hidle
  · exact absurd hreset hi

theorem Monitor.arm_counters (C : Params) (latch : Bool) (m : Monitor) :
    (m.arm C latch).counters = Counters.zero := by
  unfold Monitor.arm Monitor.enterRun
  split_ifs <;> rfl

/-- Settles O58: outside Running the only move that touches a counter is the arm step. -/
theorem countersChangeOnlyWhileRunning : Obligations.CountersChangeOnlyWhileRunning := by
  intro i s t hidle h
  obtain hm | ⟨hreset, hwm⟩ := (exec_effect h).wm_cases
  · generalize t.wm = m' at hm ⊢
    cases hm with
    | stay | budget | store => exact .inl rfl
    | bit _ _ hrun => exact absurd hrun hidle
    | arm continuous source control hi =>
      exact .inr ⟨Monitor.arm_counters _ _ _, .inr ⟨continuous, source, control, hi⟩⟩
  · exact .inr ⟨congrArg Monitor.counters hwm, .inl hreset⟩

/-- Settles O8: the reset state is defined by the reset column. -/
theorem resetStateHoldsTheResetColumn : Obligations.ResetStateHoldsTheResetColumn :=
  ⟨rfl, rfl, rfl⟩

/-- Settles O10: the combiner and the monitor are good at reset, and there is no free-standing LFSR. -/
theorem resetStateIsGood : Obligations.ResetStateIsGood :=
  ⟨Prng.inv_reset, Monitor.inv_reset, nofun⟩

end Sys2Proof.Machine
end

section
/-! PROOFS. The sequence of operations (20_memory.md): what the step takes and runs, the reads, and the only
cases in which an operation gives no next state. -/

namespace Sys2Proof.Machine

open Sys2Proof.Claims

/-! ### The step -/

theorem State.fetch_of_inbox_cons {s : State} {r : Request} {rest : List Request}
    (h : s.inbox = r :: rest) : s.fetch = (r, { s with inbox := rest }) := by
  simp only [State.fetch, h]

theorem State.fetch_of_inbox_nil {s : State} (h : s.inbox = []) :
    s.fetch = (.named (.tick (Config.freeSample s.draws)), { s with draws := s.draws + 1 }) := by
  simp only [State.fetch, h]

/-- A fetched request that decodes is run on the state without it. -/
theorem step_of_decode_ok {s s' : State} {r : Request} {i : Instr} (hfetch : s.fetch = (r, s'))
    (hdecode : decode r = .ok i) : step s = exec i s' := by
  simp only [step, hfetch, hdecode]

theorem step_of_decode_error {s s' : State} {r : Request} {why : Reject} (hfetch : s.fetch = (r, s'))
    (hdecode : decode r = .error why) : step s = .refused (.undecodable why) := by
  simp only [step, hfetch, hdecode]

/-- Settles O6: the fetch takes the head of the inbox. -/
theorem stepRunsTheDecodedRequest : Obligations.StepRunsTheDecodedRequest :=
  fun _ _ _ _ hinbox => step_of_decode_ok (State.fetch_of_inbox_cons hinbox)

/-- Settles O7: the fetch from an empty inbox names a tick, and a name always decodes. -/
theorem stepTicksWhenNothingWaitsAndRejectsUndecodable :
    Obligations.StepTicksWhenNothingWaitsAndRejectsUndecodable :=
  ⟨fun _ hinbox => step_of_decode_ok (State.fetch_of_inbox_nil hinbox) rfl,
    fun _ _ _ _ hinbox => step_of_decode_error (State.fetch_of_inbox_cons hinbox)⟩

/-! ### The reads -/

/-- A read that gives a next state records its result and changes nothing else. -/
theorem eq_withReply_of_isRead {i : Instr} {s t : State} (hi : isRead i = true)
    (h : exec i s = .next t) : t = s.withReply t.reply := by
  cases i with
  | lfsrGet k =>
    obtain ⟨_, -, -, rfl⟩ := exec_lfsrGet_next h
    rfl
  | prngGetvalue | prngRd | wmRd0 | wmRd1 | statusRd =>
    cases finish_next h
    rfl
  | _ => cases hi

/-- The outcome of a read does not depend on the result recorded before it. -/
theorem exec_withReply_of_isRead {i : Instr} (hi : isRead i = true) (s : State) (r : Reply) :
    exec i (s.withReply r) = exec i s := by
  cases i with
  | lfsrGet | prngGetvalue | prngRd | wmRd0 | wmRd1 | statusRd => rfl
  | _ => cases hi

/-- Settles O44: a read changes the recorded result only, and no read looks at it. -/
theorem readsHaveNoSideEffects : Obligations.ReadsHaveNoSideEffects := by
  intro i s t hi h
  have ht := eq_withReply_of_isRead hi h
  refine ⟨ht, ?_⟩
  calc exec i t = exec i (s.withReply t.reply) := congrArg (exec i) ht
    _ = exec i s := exec_withReply_of_isRead hi s t.reply
    _ = .next t := h

/-! ### When an operation on the free-standing LFSR stops -/

/-- What lies outside the domain of `LFSR.NEW` (40_lfsr.md R110). -/
theorem lfsrDomain_eq_false_iff {width : Nat} {taps : List Nat} :
    lfsrDomain width taps = false ↔ width = 0 ∨ ∃ p ∈ taps, width ≤ p := by
  simp [lfsrDomain, imp_iff_not_or]

theorem exec_lfsrNew (width : Nat) (taps : List Nat) (s : State) :
    exec (.lfsrNew width taps) s =
      if lfsrDomain width taps then
        finish .ok (s.withBench (some ⟨width, tapSet width taps, 0#width⟩))
      else .refused .lfsrOutsideDomain := rfl

theorem onBench_of_none {s : State} (h : s.bench = none) (f : Lfsr → Machine.Result) :
    onBench s f = .refused .noLfsrInstance := by
  simp only [onBench, h]

theorem onBench_of_some {s : State} {L : Lfsr} (h : s.bench = some L) (f : Lfsr → Machine.Result) :
    onBench s f = f L := by
  simp only [onBench, h]

theorem exec_lfsrGet_of_some {s : State} {L : Lfsr} (h : s.bench = some L) (k : Option Nat) :
    exec (.lfsrGet k) s =
      if k.getD L.width ≤ L.width then finish (.value (L.state.toNat % 2 ^ k.getD L.width)) s
      else .refused .lfsrGetTooWide :=
  onBench_of_some h _

/-! ### When a tick stops -/

/-- The one row of 44_whiteness_modes.md R220's table without a rule. -/
theorem Monitor.latchedRule_eq_none_iff {m : Monitor} :
    m.latchedRule = none ↔ m.l.mode = 1#2 ∧ m.l.subtype = true := by
  unfold Monitor.latchedRule
  generalize m.l.mode = mode, m.l.subtype = subtype
  revert mode subtype
  decide

/-- The claims' condition that the cycle is not skipped, as the model tests it. -/
theorem skips_eq_false_iff_consumes {s : State} :
    s.wm.skips (s.monitorInput Config.hw).1 = false ↔ Consumes s s.wm.l.onlyValid := by
  simp [Monitor.skips, Consumes, imp_iff_not_or]

/-- The monitor's part of a tick fails exactly where a bit is to be consumed under a latched (1,1). -/
theorem State.tickMonitor_eq_none_iff {s : State} :
    s.tickMonitor Config.hw = none ↔
      s.wm.latchedRule = none ∧ s.wm.state = .running ∧ Consumes s s.wm.l.onlyValid := by
  unfold State.tickMonitor
  cases s.wm.latchedRule with
  | some rule => simp
  | none => simp [Monitor.running, ← skips_eq_false_iff_consumes]

theorem exec_tick_of_none {s : State} (h : s.tickMonitor Config.hw = none) (x : BitVec 4) :
    exec (.tick x) s = .fault .latchedIllegalMode := by
  simp [exec, execTick, State.clockTick, h]

theorem exec_tick_of_some {s : State} {m : Monitor} (h : s.tickMonitor Config.hw = some m)
    (x : BitVec 4) : exec (.tick x) s =
      finish .ok (((s.withWm m).withPrng (s.prng.tick Config.hw)).withEmux
        (s.emux.drive Config.hw x)) := by
  simp [exec, execTick, State.clockTick, h]

/-! ### The four named stops -/

theorem exec_prngCfgwr_gives_next (enable : Bool) (minValid : BitVec 3) (s : State) :
    ∃ t, exec (.prngCfgwr enable minValid) s = .next t := by
  rw [exec_prngCfgwr]
  split <;> exact ⟨_, rfl⟩

/-- Every way a control write goes gives a next state. -/
theorem exec_wmCtlwr_gives_next (request continuous source : Bool) (control : ControlWord) (s : State) :
    ∃ t, exec (.wmCtlwr request continuous source control) s = .next t := by
  obtain ⟨-, he⟩ | ⟨-, -, -, -, he⟩ | ⟨-, -, ⟨-, he⟩ | ⟨-, -, he⟩ | ⟨-, -, he⟩⟩ :=
    exec_wmCtlwr_cases request continuous source control s
  all_goals exact ⟨_, he⟩

/-- Settles O13: only `LFSR.NEW`, the other `LFSR` operations and `TICK` can stop, and each stops
outside its domain, without a register or without a latched rule. -/
theorem operationsStopOnlyInTheNamedCases : Obligations.OperationsStopOnlyInTheNamedCases := by
  intro i s
  cases i with
  | lfsrNew width taps =>
    cases hdomain : lfsrDomain width taps with
    | true => exact .inl ⟨_, (exec_lfsrNew width taps s).trans (if_pos hdomain)⟩
    | false =>
      exact .inr <| .inl ⟨width, taps, rfl, lfsrDomain_eq_false_iff.1 hdomain,
        (exec_lfsrNew width taps s).trans (if_neg (by simp [hdomain]))⟩
  | lfsrSet v =>
    cases hbench : s.bench with
    | none => exact .inr <| .inr <| .inl ⟨.inl ⟨v, rfl⟩, rfl, onBench_of_none hbench _⟩
    | some L => exact .inl ⟨_, onBench_of_some hbench _⟩
  | lfsrClock n =>
    cases hbench : s.bench with
    | none => exact .inr <| .inr <| .inl ⟨.inr (.inr ⟨n, rfl⟩), rfl, onBench_of_none hbench _⟩
    | some L => exact .inl ⟨_, onBench_of_some hbench _⟩
  | lfsrGet k =>
    cases hbench : s.bench with
    | none => exact .inr <| .inr <| .inl ⟨.inr (.inl ⟨k, rfl⟩), rfl, onBench_of_none hbench _⟩
    | some L =>
      have hget := exec_lfsrGet_of_some hbench k
      by_cases hk : k.getD L.width ≤ L.width
      · exact .inl ⟨_, hget.trans (if_pos hk)⟩
      · cases k with
        | none => exact absurd le_rfl hk
        | some k =>
          exact .inr <| .inr <| .inr <| .inl
            ⟨k, L, rfl, rfl, Nat.lt_of_not_le hk, hget.trans (if_neg hk)⟩
  | tick x =>
    cases hm : s.tickMonitor Config.hw with
    | some m => exact .inl ⟨_, exec_tick_of_some hm x⟩
    | none =>
      obtain ⟨hrule, hrun, hbit⟩ := State.tickMonitor_eq_none_iff.1 hm
      obtain ⟨hmode, hsubtype⟩ := Monitor.latchedRule_eq_none_iff.1 hrule
      exact .inr <| .inr <| .inr <| .inr
        ⟨x, rfl, hrun, hmode, hsubtype, hbit, exec_tick_of_none hm x⟩
  | prngCfgwr enable minValid => exact .inl (exec_prngCfgwr_gives_next enable minValid s)
  | wmCtlwr request continuous source control =>
    exact .inl (exec_wmCtlwr_gives_next request continuous source control s)
  | _ => exact .inl ⟨_, rfl⟩

end Sys2Proof.Machine
end

section
/-! PROOFS. The encoding (30_encoding.md): the four fields of a control word, the decoder and the encoder on
them, and the two operations that depend on a word's layout (the illegal control write, the packed result). -/

namespace Sys2Proof

open Sys2Proof.Machine Sys2Proof.Claims

/-! ### The fields of a control word (R81 to R83) -/

/-- The mode is bits 15 and 14, which the decoder reads one by one. -/
theorem Control.mode_eq_iff {c : ControlWord} {m : BitVec 2} :
    mode c = m ↔ c.getLsbD 15 = m.getLsbD 1 ∧ c.getLsbD 14 = m.getLsbD 0 := by
  constructor
  · rintro rfl
    simp [mode]
  · rintro ⟨h15, h14⟩
    ext j hj
    have : j = 0 ∨ j = 1 := by omega
    rcases this with rfl | rfl
    · simpa [mode] using h14
    · simpa [mode] using h15

section Pack

variable (m : BitVec 2) (subtype v : Bool) (d : BitVec 8)

theorem Control.getLsbD_pack_15 : (pack m subtype v d).getLsbD 15 = m.getLsbD 1 := by simp [pack]

theorem Control.getLsbD_pack_14 : (pack m subtype v d).getLsbD 14 = m.getLsbD 0 := by simp [pack]

theorem Control.getLsbD_pack_13 : (pack m subtype v d).getLsbD 13 = subtype := by simp [pack]

@[simp] theorem Control.mode_pack : mode (pack m subtype v d) = m :=
  mode_eq_iff.2 ⟨getLsbD_pack_15 m subtype v d, getLsbD_pack_14 m subtype v d⟩

@[simp] theorem Control.subtype_pack : Control.subtype (pack m subtype v d) = subtype :=
  getLsbD_pack_13 m subtype v d

@[simp] theorem Control.onlyValid_pack : onlyValid (pack m subtype v d) = v := by simp [onlyValid, pack]

@[simp] theorem Control.data_pack : data (pack m subtype v d) = d := by
  unfold data pack
  ext j hj
  interval_cases j <;> simp

end Pack

theorem Control.data_eq_setWidth (c : ControlWord) : data c = c.setWidth 8 :=
  (BitVec.setWidth_eq_extractLsb' (by decide)).symm

/-- Packing the fields of a word clears the reserved bits 11:8 and keeps the others (R82). -/
theorem Control.pack_fields (c : ControlWord) :
    pack (mode c) (subtype c) (onlyValid c) (data c) = c &&& 0xF0FF#16 := by
  unfold pack
  ext j hj
  interval_cases j <;> simp [mode, subtype, onlyValid, data]

/-- The mask of R84 keeps `mode` and `subtype` and clears the operands. -/
theorem Control.and_patternMask (c : ControlWord) :
    c &&& 0xE000#16 = pack (mode c) (subtype c) false 0#8 := by
  have hmode : mode (c &&& 0xE000#16) = mode c := BitVec.extractLsb'_and.trans BitVec.and_allOnes
  have hsubtype : subtype (c &&& 0xE000#16) = subtype c := (BitVec.getLsbD_and ..).trans (Bool.and_true _)
  have honlyValid : onlyValid (c &&& 0xE000#16) = false := (BitVec.getLsbD_and ..).trans (Bool.and_false _)
  have hdata : data (c &&& 0xE000#16) = 0#8 := BitVec.extractLsb'_and.trans BitVec.and_zero
  have hreserved : c &&& 0xE000#16 &&& 0xF0FF#16 = c &&& 0xE000#16 := BitVec.and_assoc ..
  rw [← hreserved, ← pack_fields, hmode, hsubtype, honlyValid, hdata]

/-- The masked bits of a word are those of a row exactly when the word has the row's mode and subtype. -/
theorem Control.and_patternMask_eq_iff {c row : ControlWord} {m : BitVec 2} {b : Bool}
    (hrow : row = pack m b false 0#8) : c &&& 0xE000#16 = row ↔ mode c = m ∧ subtype c = b := by
  rw [and_patternMask, hrow]
  constructor
  · intro h
    exact ⟨by simpa using congrArg mode h, by simpa using congrArg subtype h⟩
  · rintro ⟨rfl, rfl⟩
    rfl

/-! ### The control word and its pattern -/

/-- Decoding the word of a pattern gives the pattern back: the eight rows of R84. -/
theorem decodeControl_of_encodeControl {i : Instr} {c : ControlWord} (h : encodeControl i = some c) :
    decodeControl c = i := by
  cases i with
  | wmCountOnes v d | wmCountToggles v d | wmRunlen v d | wmIllegal v d
  | wmTmatchNovl v d | wmTmatchOvl v d | wmMaxexcMax v d | wmMaxexcHit v d =>
    cases h
    simp only [decodeControl, Control.getLsbD_pack_15, Control.getLsbD_pack_14, Control.getLsbD_pack_13,
      Control.onlyValid_pack, Control.data_pack]
    rfl
  | _ => cases h

/-- The pattern of a word is encoded by the word's own fields. -/
theorem encodeControl_decodeControl (c : ControlWord) :
    encodeControl (decodeControl c) =
      some (Control.pack (Control.mode c) (Control.subtype c) (Control.onlyValid c) (Control.data c)) := by
  unfold decodeControl
  split
  all_goals
    rename_i h15 h14 h13
    rw [encodeControl, Control.subtype, h13]
    exact congrArg (fun m => some (Control.pack m _ _ _)) (Control.mode_eq_iff.2 ⟨h15, h14⟩).symm

/-- Settles O2: the fields encode the pattern, and packing them clears the reserved bits. -/
theorem reencodedControlWordClearsReservedBits : Obligations.ReencodedControlWordClearsReservedBits :=
  fun c => (encodeControl_decodeControl c).trans (congrArg some (Control.pack_fields c))

/-- A row of the opcode map: the masked bits are the row's exactly when the word decodes to the row's
pattern, whose operands are bit 12 and bits 7:0. -/
theorem and_patternMask_eq_iff_decodeControl_eq {c row : ControlWord} {i : Instr} {m : BitVec 2} {b : Bool}
    (hi : encodeControl i = some (Control.pack m b (c.getLsbD 12) (c.setWidth 8)))
    (hrow : row = Control.pack m b false 0#8) : c &&& 0xE000#16 = row ↔ decodeControl c = i := by
  rw [Control.and_patternMask_eq_iff hrow]
  rw [← Control.data_eq_setWidth] at hi
  have hc := encodeControl_decodeControl c
  constructor
  · rintro ⟨rfl, rfl⟩
    exact (decodeControl_of_encodeControl hc).symm.trans (decodeControl_of_encodeControl hi)
  · rintro rfl
    have hpack := Option.some.inj (hc.symm.trans hi)
    exact ⟨by simpa using congrArg Control.mode hpack, by simpa using congrArg Control.subtype hpack⟩

/-- Settles O3: each pattern is encoded by its row's mode and subtype and by its operands. -/
theorem controlWordFollowsTheOpcodeMap : Obligations.ControlWordFollowsTheOpcodeMap := by
  intro c
  refine ⟨?_, ?_, ?_, ?_, ?_, ?_, ?_, ?_⟩
  all_goals exact and_patternMask_eq_iff_decodeControl_eq rfl rfl

/-! ### Raw words and requests -/

/-- A 16-bit word is a control word. -/
theorem decode_word_16 (c : ControlWord) : decode (.word 16 c.toNat) = .ok (decodeControl c) := by
  simp [decode, decodeWord, Nat.not_le.2 c.isLt]

/-- A 32-bit word is a run length (R91). -/
theorem decode_word_32 (v : Word) : decode (.word 32 v.toNat) = .ok (.wmRlwr v) := by
  simp [decode, decodeWord, Nat.not_le.2 v.isLt]

theorem encode_of_encodeControl_some {i : Instr} {c : ControlWord} (h : encodeControl i = some c) :
    encode i = .word 16 c.toNat := by
  unfold encode
  split
  · cases h
  · rw [h]

theorem encode_of_encodeControl_none {i : Instr} (h : encodeControl i = none) (hi : ∀ v, i ≠ .wmRlwr v) :
    encode i = .named i := by
  unfold encode
  split
  · exact absurd rfl (hi _)
  · rw [h]

/-- Settles O1: an instruction is carried by its control word, by its run length, or by name. -/
theorem decodeOfEncodeIsTheInstruction : Obligations.DecodeOfEncodeIsTheInstruction := by
  intro i
  cases h : encodeControl i with
  | some c =>
    rw [encode_of_encodeControl_some h, decode_word_16, decodeControl_of_encodeControl h]
  | none =>
    by_cases hi : ∃ v, i = .wmRlwr v
    · obtain ⟨v, rfl⟩ := hi
      exact decode_word_32 v
    · rw [encode_of_encodeControl_none h (not_exists.1 hi), decode]

/-- Settles O4: the decoder run on the nine words. -/
theorem sampleWordsDecode : Obligations.SampleWordsDecode := by
  unfold Obligations.SampleWordsDecode
  decide

/-- Settles O5: the value fits, so the width is what the decoder rejects. -/
theorem wordsOfOtherWidthsAreRejected : Obligations.WordsOfOtherWidthsAreRejected := by
  intro nbits w h16 h32 hfits
  rw [decode, decodeWord, if_neg (Nat.not_le.2 hfits), if_neg h16, if_neg h32]

/-! ### The illegal pattern (R85) -/

/-- Settles O54: the pattern raises the error and touches nothing else, whatever its operands. -/
theorem illegalPatternIsRejected : Obligations.IllegalPatternIsRejected :=
  exec_wmIllegal

/-- Bits 15:13 are 0b011 exactly when the check of a control write fires. -/
theorem illegalWord_iff {c : ControlWord} : IllegalWord c ↔ Control.illegal c = true := by
  have hrow : IllegalWord c ↔ Control.mode c = 1#2 ∧ Control.subtype c = true :=
    Control.and_patternMask_eq_iff rfl
  rw [hrow, Control.illegal, Bool.and_eq_true, decide_eq_true_iff]

/-- Settles O36: of the ways a control write goes, an illegal word leaves the first only. -/
theorem controlWriteRejectsTheIllegalPattern : Obligations.ControlWriteRejectsTheIllegalPattern := by
  intro request continuous source control s hillegal
  have hcheck := illegalWord_iff.1 hillegal
  obtain ⟨-, he⟩ | ⟨hlegal, -⟩ | ⟨hlegal, -⟩ := exec_wmCtlwr_cases request continuous source control s
  · exact he
  · simp [hcheck] at hlegal
  · simp [hcheck] at hlegal

/-! ### The packed result (R89) -/

/-- Appended words are the digits of a number. -/
theorem toNat_append_eq_add {m n : Nat} (x : BitVec m) (y : BitVec n) :
    (x ++ y).toNat = x.toNat * 2 ^ n + y.toNat := by
  rw [BitVec.toNat_append, ← Nat.shiftLeft_add_eq_or_of_lt y.isLt, Nat.shiftLeft_eq]

/-- Settles O45: the four lanes are the digits of the result to base `2 ^ 16`. -/
theorem resultPacksSixteenBitLanes : Obligations.ResultPacksSixteenBitLanes := by
  intro c
  have hpack : wmPack Config.hw c = packLanes c.c0 c.c1 c.c2 c.c3 := rfl
  rw [hpack, packLanes]
  simp only [toNat_append_eq_add, BitVec.toNat_setWidth]
  ring

end Sys2Proof
end

section
/-! PROOFS. The LFSR primitive (40_lfsr.md): the feedback shift bit by bit, iterated clocking, and the four
operations on the free-standing register. -/

namespace Sys2Proof.Machine

open Sys2Proof.Claims

/-! ### The feedback shift (R113) -/

/-- The feedback of the positions below `n` is the parity of the number of set tap bits there. -/
theorem tapParity_eq_odd_length {w : Nat} (taps : List Nat) (s : BitVec w) (n : Nat) :
    tapParity taps s n =
      decide (((List.range n).filter fun p => taps.contains p && s.getLsbD p).length % 2 = 1) := by
  induction n with
  | zero => rfl
  | succ n ih =>
    rw [tapParity, ih, List.range_succ, List.filter_append, List.filter_singleton, List.length_append]
    cases taps.contains n && s.getLsbD n with
    | false => simp
    | true =>
      rw [Bool.xor_true, ← decide_not, decide_eq_decide, cond_true, List.length_singleton]
      omega

theorem feedback_eq_odd_hitTaps {w : Nat} (taps : List Nat) (s : BitVec w) :
    feedback taps s = decide ((hitTaps taps s).length % 2 = 1) :=
  tapParity_eq_odd_length taps s w

/-- Settles O18: bit 0 is the inserted feedback, and every other bit is the one below it before the shift. -/
theorem lfsrStepShiftsAndInsertsTheTapParity : Obligations.LfsrStepShiftsAndInsertsTheTapParity := by
  intro w taps s inject hw
  rw [← feedback_eq_odd_hitTaps]
  exact ⟨shiftIn_getLsbD_zero s _ hw, shiftIn_getLsbD_zero s _ hw, fun j hj =>
    ⟨shiftIn_getLsbD_succ s _ j hj, shiftIn_getLsbD_succ s _ j hj⟩⟩

/-- A shift forgets the top bit and nothing else. -/
theorem shiftIn_eq_shiftIn_iff {w : Nat} {s t : BitVec (w + 1)} {b c : Bool} :
    shiftIn s b = shiftIn t c ↔ b = c ∧ ∀ j < w, s.getLsbD j = t.getLsbD j := by
  constructor
  · intro h
    constructor
    · simpa only [shiftIn_getLsbD_zero _ _ w.succ_pos] using congrArg (·.getLsbD 0) h
    · intro j hj
      simpa only [shiftIn_getLsbD_succ _ _ j (Nat.succ_lt_succ hj)] using congrArg (·.getLsbD (j + 1)) h
  · rintro ⟨rfl, hlow⟩
    apply BitVec.eq_of_getLsbD_eq
    intro i hi
    cases i with
    | zero => rw [shiftIn_getLsbD_zero s b hi, shiftIn_getLsbD_zero t b hi]
    | succ j =>
      rw [shiftIn_getLsbD_succ s b j hi, shiftIn_getLsbD_succ t b j hi]
      exact hlow j (Nat.lt_of_succ_lt_succ hi)

/-- States that agree below the top bit have the same feedback unless the top bit is a tap and differs. -/
theorem feedback_eq_feedback_iff {w : Nat} {taps : List Nat} {s t : BitVec (w + 1)}
    (hlow : ∀ j < w, s.getLsbD j = t.getLsbD j) :
    feedback taps s = feedback taps t ↔ (w ∈ taps → s.getLsbD w = t.getLsbD w) := by
  have hbelow : tapParity taps s w = tapParity taps t w :=
    tapParity_congr taps s t w fun p hp _ => hlow p hp
  by_cases hw : w ∈ taps
  · simp [feedback, tapParity, hbelow, hw]
  · simp [feedback, tapParity, hbelow, hw]

/-- With the top bit a tap, the feedback gives back the bit the shift discards (R117). -/
theorem lfsrStep_injective {w : Nat} {taps : List Nat} (hw : w ∈ taps) :
    Function.Injective (lfsrStep taps : BitVec (w + 1) → BitVec (w + 1)) := by
  intro s t h
  obtain ⟨hfeedback, hlow⟩ := shiftIn_eq_shiftIn_iff.1 h
  have htop : s.getLsbD w = t.getLsbD w := (feedback_eq_feedback_iff hlow).1 hfeedback hw
  apply BitVec.eq_of_getLsbD_eq
  intro i hi
  obtain hlt | rfl := Nat.lt_succ_iff_lt_or_eq.1 hi
  · exact hlow i hlt
  · exact htop

/-- With the top bit no tap, a step sees the bits below it only (R117). -/
theorem lfsrStep_congr_of_top_notMem {w : Nat} {taps : List Nat} (hw : w ∉ taps) {s t : BitVec (w + 1)}
    (hlow : ∀ j < w, s.getLsbD j = t.getLsbD j) : lfsrStep taps s = lfsrStep taps t :=
  shiftIn_eq_shiftIn_iff.2 ⟨(feedback_eq_feedback_iff hlow).2 fun h => absurd h hw, hlow⟩

/-- Settles O21: the feedback either restores the discarded bit or does not see it. -/
theorem stepIsInjectiveExactlyWhenTheTopBitIsATap :
    Obligations.StepIsInjectiveExactlyWhenTheTopBitIsATap := by
  intro w taps
  refine ⟨lfsrStep_injective, fun hw => ?_⟩
  have hflip (s : BitVec (w + 1)) : lfsrStep taps (s ^^^ BitVec.twoPow (w + 1) w) = lfsrStep taps s :=
    lfsrStep_congr_of_top_notMem hw fun j hj => by
      simp [BitVec.getLsbD_twoPow, hj.ne']
  refine ⟨hflip, ?_⟩
  calc lfsrStep taps (BitVec.twoPow (w + 1) w)
    _ = lfsrStep taps (0#(w + 1) ^^^ BitVec.twoPow (w + 1) w) := by rw [BitVec.zero_xor]
    _ = lfsrStep taps (0#(w + 1)) := hflip _
    _ = 0#(w + 1) := lfsrStep_zero taps

/-! ### Clocking (R114, R115, R118) -/

theorem lfsrClock_eq_iterate {w : Nat} (taps : List Nat) (n : Nat) (s : BitVec w) :
    lfsrClock taps n s = (lfsrStep taps)^[n] s := by
  induction n generalizing s with
  | zero => rfl
  | succ n ih => exact ih (lfsrStep taps s)

/-- The zero state stays under any number of steps. -/
theorem lfsrClock_zero {w : Nat} (taps : List Nat) (n : Nat) : lfsrClock taps n (0#w) = 0#w := by
  rw [lfsrClock_eq_iterate]
  exact Function.iterate_fixed (lfsrStep_zero taps) n

/-- An injected one leaves the zero state (R118). -/
theorem lfsrStepInj_zero_true {w : Nat} (taps : List Nat) : lfsrStepInj taps (0#w) true = 1#w := by
  simp [lfsrStepInj, feedback, tapParity_zero, shiftIn, BitVec.setWidth_ofNat_one_eq_ofNat_one_of_lt]

theorem exec_lfsrClock_of_some {s : State} {L : Lfsr} (h : s.bench = some L) (n : Nat) :
    exec (.lfsrClock n) s =
      .next ((s.withBench (some { L with state := lfsrClock L.taps n L.state })).withReply .ok) :=
  onBench_of_some h _

/-- Settles O17: the operation clocks the register it finds. -/
theorem lfsrClockIteratesTheStep : Obligations.LfsrClockIteratesTheStep := by
  intro n s L hbench
  rw [exec_lfsrClock_of_some hbench, lfsrClock_eq_iterate]
  rfl

theorem runAll_cons_of_next {i : Instr} {s t : State} (h : exec i s = .next t) (rest : List Instr) :
    runAll (i :: rest) s = runAll rest t := by
  simp only [runAll, h]

theorem runAll_singleton (i : Instr) (s : State) : runAll [i] s = exec i s := by
  cases h : exec i s with
  | next t => rw [runAll_cons_of_next h, runAll]
  | fault r => simp only [runAll, h]
  | refused r => simp only [runAll, h]

/-- Settles O19: the second operation clocks the register the first left. -/
theorem lfsrClockComposes : Obligations.LfsrClockComposes := by
  intro a b s hbench
  obtain ⟨L, hL⟩ := Option.ne_none_iff_exists'.1 hbench
  rw [runAll_cons_of_next (exec_lfsrClock_of_some hL a), runAll_singleton, exec_lfsrClock_of_some rfl,
    exec_lfsrClock_of_some hL, lfsrClock_add]
  rfl

/-- Settles O20: the register clocked from zero is the register itself. -/
theorem zeroIsAFixedPointOfClocking : Obligations.ZeroIsAFixedPointOfClocking := by
  refine ⟨fun n s L hbench hzero => ?_, fun w taps _ => lfsrStepInj_zero_true taps⟩
  have hstate : lfsrClock L.taps n L.state = L.state := by rw [hzero, lfsrClock_zero]
  rw [exec_lfsrClock_of_some hbench, hstate, ← hbench]
  rfl

/-! ### Creating, setting and reading the register (R110 to R112) -/

theorem mem_tapSet_iff {width p : Nat} {taps : List Nat} :
    p ∈ tapSet width taps ↔ p < width ∧ p ∈ taps := by
  simp [tapSet]

theorem lfsrDomain_eq_true_iff {width : Nat} {taps : List Nat} :
    lfsrDomain width taps = true ↔ 0 < width ∧ ∀ p ∈ taps, p < width := by
  simp [lfsrDomain]

/-- Settles O14: the domain check decides, and inside the domain every tap is kept. -/
theorem lfsrNewCreatesAZeroRegister : Obligations.LfsrNewCreatesAZeroRegister := by
  constructor
  · intro width taps s hwidth htaps
    refine ⟨⟨width, tapSet width taps, 0#width⟩, ?_, rfl, BitVec.toNat_zero, fun p => ?_⟩
    · exact (exec_lfsrNew width taps s).trans (if_pos (lfsrDomain_eq_true_iff.2 ⟨hwidth, htaps⟩))
    · rw [mem_tapSet_iff, and_iff_right_of_imp (htaps p)]
  · intro width taps s houtside
    rw [exec_lfsrNew, lfsrDomain_eq_false_iff.2 houtside]
    rfl

/-- Settles O15: the register takes the value's low bits and keeps its width and taps. -/
theorem lfsrSetReducesModuloTheWidth : Obligations.LfsrSetReducesModuloTheWidth :=
  fun value _ L hbench => ⟨onBench_of_some hbench _, BitVec.toNat_ofNat value L.width⟩

/-- Settles O16: the omitted operand is the width, below which the whole state lies. -/
theorem lfsrGetReturnsTheLowBits : Obligations.LfsrGetReturnsTheLowBits := by
  intro s L hbench
  have hget := exec_lfsrGet_of_some hbench
  refine ⟨fun k hk => (hget k).trans (if_pos hk), ?_, fun k hk => (hget k).trans (if_neg (Nat.not_le.2 hk))⟩
  have hwhole : L.state.toNat % 2 ^ L.width = L.state.toNat := Nat.mod_eq_of_lt L.state.isLt
  rw [hget none, Option.getD_none, if_pos le_rfl, hwhole]
  rfl

end Sys2Proof.Machine
end

section
/-! PROOFS. The combiner (41_prng_combiner.md): what a forcing write, a number of steps and a seeding iteration
do to one LFSR, carried to the four by the access by index, and the votes of `PRNG.GETVALUE`. -/

namespace Sys2Proof.Machine

open Sys2Proof.Claims

/-! ### One LFSR (R131, R132, R136) -/

theorem Channel.forced_write {w : Nat} (c : Channel w) (v : BitVec w) : Forced c v (c.write v) := by
  unfold Channel.write
  split
  case isTrue hzero => exact ⟨(if_pos hzero).symm, by simp [hzero]⟩
  case isFalse hne => exact ⟨(if_neg hne).symm, by simp [hne]⟩

theorem Channel.step_state {w : Nat} (taps : List Nat) (c : Channel w) :
    (c.step taps).state = forcedStep taps c.state :=
  (c.forced_write _).1

theorem Channel.step_recovered_iff {w : Nat} (taps : List Nat) (c : Channel w) :
    (c.step taps).recovered = true ↔ c.recovered = true ∨ lfsrStep taps c.state = 0#w :=
  (c.forced_write _).2

/-- Of the steps that may meet zero, the first is split off and the others are those from the forced state. -/
theorem Channel.clocked_clock {w : Nat} (taps : List Nat) (n : Nat) (c : Channel w) :
    Clocked taps n c (c.clock taps n) := by
  induction n generalizing c with
  | zero => exact ⟨rfl, by simp [Channel.clock]⟩
  | succ n ih =>
    obtain ⟨hstate, hrecovered⟩ := ih (c.step taps)
    rw [step_state] at hstate hrecovered
    refine ⟨hstate, hrecovered.trans ?_⟩
    rw [step_recovered_iff, Nat.exists_lt_succ_left, or_assoc]
    rfl

theorem Channel.mixed_mix {w : Nat} (taps : List Nat) (chunk : BitVec 16) (c : Channel w) :
    Mixed taps chunk c (c.mix taps chunk) :=
  ⟨_, c.forced_write _, Channel.clocked_clock taps mixClocks _⟩

/-! ### Access by index -/

/-- A value chosen by an `if` stands in the chosen relation to the old value. -/
theorem ite_rel_of_eq_ite {α : Type} {P : Prop} [Decidable P] {R : α → α → Prop} {old new x : α}
    (hx : R old x) (h : new = if P then x else old) : if P then R old new else new = old := by
  subst h
  split
  · exact hx
  · rfl

/-- A relation between old and new that `f` gives holds on LFSR `i`, and the rest is unchanged. -/
theorem Prng.onLfsr_rel {f : {w : Nat} → List Nat → Channel w → Channel w}
    (R : {w : Nat} → List Nat → Channel w → Channel w → Prop)
    (hf : ∀ {w : Nat} (taps : List Nat) (c : Channel w), R taps c (f taps c))
    (C : Params) (i : Fin 4) (p : Prng) :
    (if i = 0 then R (positions C.prngPoly0) p.lfsr0 (p.onLfsr C i f).lfsr0
      else (p.onLfsr C i f).lfsr0 = p.lfsr0) ∧
    (if i = 1 then R (positions C.prngPoly1) p.lfsr1 (p.onLfsr C i f).lfsr1
      else (p.onLfsr C i f).lfsr1 = p.lfsr1) ∧
    (if i = 2 then R (positions C.prngPoly2) p.lfsr2 (p.onLfsr C i f).lfsr2
      else (p.onLfsr C i f).lfsr2 = p.lfsr2) ∧
    (if i = 3 then R (positions C.prngPoly3) p.lfsr3 (p.onLfsr C i f).lfsr3
      else (p.onLfsr C i f).lfsr3 = p.lfsr3) ∧
    (p.onLfsr C i f).enable = p.enable ∧ (p.onLfsr C i f).minValid = p.minValid := by
  obtain ⟨h0, h1, h2, h3, hconfig⟩ := p.onLfsr_cases C i f
  exact ⟨ite_rel_of_eq_ite (hf _ _) h0, ite_rel_of_eq_ite (hf _ _) h1, ite_rel_of_eq_ite (hf _ _) h2,
    ite_rel_of_eq_ite (hf _ _) h3, hconfig⟩

/-- Settles O22: the operation is a forcing write of the masked value on LFSR `i`. -/
theorem prngSetMasksAndForces : Obligations.PrngSetMasksAndForces := fun i value s =>
  ⟨_, exec_prngSet i value s,
    Prng.onLfsr_rel (fun _ c => Forced c (BitVec.ofNat _ value)) (fun _ c => c.forced_write _) Config.hw i
      s.prng⟩

/-- Settles O23: each LFSR is clocked with its own polynomial, and `enable` is not consulted. -/
theorem prngClockAdvancesAllFour : Obligations.PrngClockAdvancesAllFour := fun n s =>
  ⟨_, exec_prngClock n s, Channel.clocked_clock _ n _, Channel.clocked_clock _ n _,
    Channel.clocked_clock _ n _, Channel.clocked_clock _ n _, rfl, rfl⟩

/-- Settles O25: the operation is a seeding iteration on LFSR `i`. -/
theorem prngMixMixesThenClocks : Obligations.PrngMixMixesThenClocks := fun i chunk s =>
  ⟨_, exec_prngMix i chunk s,
    Prng.onLfsr_rel (fun taps => Mixed taps chunk) (fun taps c => c.mixed_mix taps chunk) Config.hw i
      s.prng⟩

/-! ### The votes (R134, R135) -/

theorem Channel.low_eq_setWidth {w : Nat} (c : Channel w) : c.low = c.state.setWidth 3 := by
  ext j hj
  simp only [low, BitVec.getElem_extractLsb', BitVec.getElem_setWidth, Nat.zero_add]

/-- A voter's bit 0 is set at 001 and clear at 010, so an LFSR contributes exactly at 001. -/
theorem votes_and_bit0_eq : ∀ v : BitVec 3, (votes v && v.getLsbD 0) = (v == 1#3) := by decide

theorem Channel.vote_eq {w : Nat} (c : Channel w) : c.vote = (c.state.setWidth 3 == 1#3) := by
  rw [← low_eq_setWidth]
  exact votes_and_bit0_eq c.low

theorem length_filter_cons {α : Type} (q : α → Bool) (a : α) (l : List α) :
    ((a :: l).filter q).length = (q a).toNat + (l.filter q).length := by
  cases h : q a with
  | false => simp [h]
  | true => simp [h, Nat.add_comm]

/-- An element that `q` holds of flips the parity. -/
theorem odd_length_filter_cons {α : Type} (q : α → Bool) (a : α) (l : List α) :
    decide (((a :: l).filter q).length % 2 = 1) = (q a ^^ decide ((l.filter q).length % 2 = 1)) := by
  rw [length_filter_cons]
  cases q a with
  | false => simp
  | true =>
    rw [Bool.true_xor, ← decide_not, decide_eq_decide, Bool.toNat_true]
    omega

theorem Prng.voteCount_eq (p : Prng) :
    p.voteCount = ((lows p).filter fun v => v == 1#3 || v == 2#3).length := by
  simp only [lows, length_filter_cons, ← Channel.low_eq_setWidth, List.filter_nil, List.length_nil,
    Nat.add_zero, ← Nat.add_assoc]
  rfl

theorem Prng.votesOk_eq_enoughVotes (p : Prng) : p.votesOk = enoughVotes p := by
  rw [Prng.votesOk, voteCount_eq, enoughVotes]

theorem Prng.bit_eq_voteParity (p : Prng) : p.bit = voteParity p := by
  rw [voteParity, lows]
  simp [Prng.bit, Channel.vote_eq, odd_length_filter_cons]

/-- Settles O24: the two parts of the pair, whatever `enable` holds. -/
theorem prngGetvalueCountsTheVotes : Obligations.PrngGetvalueCountsTheVotes := by
  intro s
  rw [exec_prngGetvalue, Prng.votesOk_eq_enoughVotes, Prng.bit_eq_voteParity]
  rfl

/-! ### Seeding (R137) -/

theorem runAll_prngMix_cons (i : Fin 4) (chunk : BitVec 16) (rest : List Instr) (s : State) :
    runAll (.prngMix i chunk :: rest) s =
      runAll rest ((s.withPrng (s.prng.mix Config.hw i chunk)).withReply .ok) :=
  runAll_cons_of_next (exec_prngMix i chunk s) rest

/-- The four chunks of LFSR `i` in order. -/
theorem runAll_four_prngMix (i : Fin 4) (a b c d : BitVec 16) (rest : List Instr) (s : State) :
    runAll (.prngMix i a :: .prngMix i b :: .prngMix i c :: .prngMix i d :: rest) s =
      runAll rest ((s.withPrng (s.prng.seedOne Config.hw i a b c d)).withReply .ok) := by
  simp only [runAll_prngMix_cons]
  rfl

/-- Settles O26: four mixes in a row seed one LFSR, and the LFSRs come in order. -/
theorem prngSeedIsSixteenMixes : Obligations.PrngSeedIsSixteenMixes := by
  intro c s
  refine ⟨_, exec_prngSeed c s, ?_⟩
  simp only [mixes, runAll_four_prngMix]
  rfl

end Sys2Proof.Machine
end

section
/-! PROOFS. EntropyMux (42_entropy_mux.md): the observed bit as a parity, and `EMUX.DRIVE`. -/

namespace Sys2Proof.Machine

/-- `emux_out` is the parity of the number of observation bits that are set (R162). -/
theorem Emux.out_eq_odd_count (C : Params) (e : Emux) :
    e.out C = decide ([e.lfsr0.getLsbD C.emuxObs0.val, e.lfsr1.getLsbD C.emuxObs1.val,
      e.lfsr2.getLsbD C.emuxObs2.val, e.lfsr3.getLsbD C.emuxObs3.val].count true % 2 = 1) := by
  rw [List.count, List.countP_eq_length_filter]
  simp [Emux.out, odd_length_filter_cons]

/-- Settles O31: the drive computes the six fields, and the result is the parity of its own observation
bits. -/
theorem emuxDriveInjectsTheChange : Obligations.EmuxDriveInjectsTheChange := by
  intro sample s
  simp only [← BitVec.getLsbD_xor]
  refine ⟨s.emux.drive Config.hw sample, _, exec_emuxDrive sample s, rfl, rfl, rfl, rfl, rfl, rfl, ?_⟩
  rw [Emux.out_eq_odd_count, decide_eq_true_iff]
  rfl

end Sys2Proof.Machine
end

section
/-! PROOFS. The host's operations on the WhitenessMonitor and the source it samples (43_whiteness_control.md):
the rejections of a control write, what an accepted one stores, the arm step, and the reads. -/

namespace Sys2Proof.Machine

open Sys2Proof.Claims

/-! ### The sampled source (R185) -/

theorem Prng.valid_eq_enable_and_enoughVotes (p : Prng) : p.valid = (p.enable && enoughVotes p) := by
  rw [Prng.valid, votesOk_eq_enoughVotes]

/-- Settles O35: the two rows of the latched source, each the pair the claims write out. -/
theorem monitorSamplesTheLatchedSource : Obligations.MonitorSamplesTheLatchedSource := by
  intro s
  cases hsource : s.wm.l.source with
  | entropyIn =>
    simp only [State.monitorInput, sampled, hsource, if_true, Emux.out_eq_odd_count]
    rfl
  | prngOut =>
    simp [State.monitorInput, sampled, hsource, Prng.valid_eq_enable_and_enoughVotes,
      Prng.bit_eq_voteParity]

/-! ### The ways a control write goes (R181, R184, R190) -/

/-- The source bit of a control write, as the claims read it. -/
theorem Source.ofBit_eq_ite (source : Bool) :
    Source.ofBit source = if source then Source.prngOut else Source.entropyIn := by
  cases source <;> rfl

theorem sourceChange_iff {s : State} {source : Bool} :
    SourceChange s source ↔
      s.wm.state = .running ∧ s.wm.cfg.continuous = true ∧ Source.ofBit source ≠ s.wm.cfg.source := by
  rw [SourceChange, Source.ofBit_eq_ite, ne_comm]

theorem stored_eq_storeControl (m : Monitor) (continuous source : Bool) (control : ControlWord) :
    stored m continuous source control = m.storeControl continuous (Source.ofBit source) control := by
  rw [Source.ofBit_eq_ite]
  rfl

/-- A control write that is not turned away stores the configuration, and a request besides is ignored while
Running and arms the monitor otherwise. -/
theorem exec_wmCtlwr_of_accepted {continuous source : Bool} {control : ControlWord} {s : State}
    (hword : ¬IllegalWord control) (hsource : ¬SourceChange s source) (request : Bool) :
    (request = false ∧ exec (.wmCtlwr request continuous source control) s =
      .next ((s.withWm (stored s.wm continuous source control)).withReply .ok)) ∨
    (request = true ∧ s.wm.state = .running ∧ exec (.wmCtlwr request continuous source control) s =
      .next ((s.withWm (stored s.wm continuous source control)).withReply .ignoredStateViolation)) ∨
    (request = true ∧ s.wm.state ≠ .running ∧ exec (.wmCtlwr request continuous source control) s =
      .next ((s.withWm ((stored s.wm continuous source control).arm Config.hw true)).withReply .ok)) := by
  rw [stored_eq_storeControl]
  obtain ⟨hillegal, -⟩ | ⟨-, hrun, hcont, hne, -⟩ | ⟨-, -, haccepted⟩ :=
    exec_wmCtlwr_cases request continuous source control s
  · exact absurd (illegalWord_iff.2 hillegal) hword
  · exact absurd (sourceChange_iff.2 ⟨hrun, hcont, hne⟩) hsource
  · exact haccepted

/-- Settles O37: of the ways a control write goes, a legal word with a source change leaves the second. -/
theorem controlWriteRejectsASourceChange : Obligations.ControlWriteRejectsASourceChange := by
  intro request continuous source control s hword hsource
  obtain ⟨hillegal, -⟩ | ⟨-, -, -, -, he⟩ | ⟨-, hkept, -⟩ :=
    exec_wmCtlwr_cases request continuous source control s
  · exact absurd (illegalWord_iff.2 hillegal) hword
  · exact he
  · exact absurd (sourceChange_iff.1 hsource) hkept

/-- Settles O38: Running chooses the ignored request among the accepted writes. -/
theorem requestWhileRunningIsIgnored : Obligations.RequestWhileRunningIsIgnored := by
  intro continuous source control s hword hsource hrun
  obtain ⟨hrequest, -⟩ | ⟨-, -, he⟩ | ⟨-, hidle, -⟩ :=
    exec_wmCtlwr_of_accepted (continuous := continuous) hword hsource true
  · cases hrequest
  · exact he
  · exact absurd hrun hidle

/-- Settles O39: without a request an accepted write ends at the stores. -/
theorem controlWriteStoresTheConfiguration : Obligations.ControlWriteStoresTheConfiguration := by
  intro continuous source control s hword hsource
  obtain ⟨-, he⟩ | ⟨hrequest, -⟩ | ⟨hrequest, -⟩ :=
    exec_wmCtlwr_of_accepted (continuous := continuous) hword hsource false
  · exact he
  · cases hrequest
  · cases hrequest

/-- Outside Running no source change is turned away, and a request arms the monitor. -/
theorem exec_wmCtlwr_of_request {continuous source : Bool} {control : ControlWord} {s : State}
    (hword : ¬IllegalWord control) (hidle : s.wm.state ≠ .running) :
    exec (.wmCtlwr true continuous source control) s =
      .next ((s.withWm ((stored s.wm continuous source control).arm Config.hw true)).withReply .ok) := by
  have hsource : ¬SourceChange s source := fun h => hidle h.1
  obtain ⟨hrequest, -⟩ | ⟨-, hrun, -⟩ | ⟨-, -, he⟩ :=
    exec_wmCtlwr_of_accepted (continuous := continuous) hword hsource true
  · cases hrequest
  · exact absurd hrun hidle
  · exact he

/-! ### The arm step (R182, R183) -/

theorem Monitor.enterRun_of_budget {C : Params} {m : Monitor} (h : m.l.runLength ≠ 0#32) :
    m.enterRun C = { m with state := .running } :=
  if_neg h

theorem Monitor.enterRun_of_zero {C : Params} {m : Monitor} (h : m.l.runLength = 0#32) :
    m.enterRun C = { m with result := wmPack C Counters.zero, resultValid := true, state := .done } :=
  if_pos h

/-- The latch a request takes from a host's control write and the stored budget (R182). -/
def MonitorLatch.ofRequest (source : Bool) (control : ControlWord) (budget : Word) : MonitorLatch where
  mode := control.extractLsb' 14 2
  subtype := control.getLsbD 13
  onlyValid := control.getLsbD 12
  data := control.setWidth 8
  runLength := budget
  source := if source then .prngOut else .entropyIn

/-- The bits a control write drops are in no field of the latch (30_encoding.md R82, R83). -/
theorem MonitorLatch.ofConfig_stored (m : Monitor) (continuous source : Bool) (control : ControlWord) :
    ofConfig (stored m continuous source control).cfg = ofRequest source control m.cfg.runLength := by
  simp only [ofConfig, ofRequest, ← Control.data_eq_setWidth, stored, ← Control.pack_fields,
    Control.mode_pack, Control.subtype_pack, Control.onlyValid_pack, Control.data_pack]
  rfl

/-- A request up to the end of its arm step, the latch written out. -/
theorem exec_wmCtlwr_of_request_latch {continuous source : Bool} {control : ControlWord} {s : State}
    (hword : ¬IllegalWord control) (hidle : s.wm.state ≠ .running) :
    exec (.wmCtlwr true continuous source control) s =
      .next ((s.withWm (Monitor.enterRun Config.hw (Monitor.clearRun
        { stored s.wm continuous source control with
          l := .ofRequest source control s.wm.cfg.runLength, resultValid := false }))).withReply .ok) := by
  rw [exec_wmCtlwr_of_request hword hidle, ← MonitorLatch.ofConfig_stored]
  rfl

/-- Settles O40: with a budget the arm step ends in Running. -/
theorem requestArmsTheMonitor : Obligations.RequestArmsTheMonitor := by
  intro continuous source control s hword hidle hbudget
  rw [exec_wmCtlwr_of_request_latch hword hidle, Monitor.enterRun_of_budget hbudget]
  rfl

/-- Settles O41: on a zero budget the arm step ends in Done with the cleared counters packed. -/
theorem requestWithZeroBudgetCompletesAtOnce : Obligations.RequestWithZeroBudgetCompletesAtOnce := by
  intro continuous source control s hword hidle hzero
  rw [exec_wmCtlwr_of_request_latch hword hidle, hzero, Monitor.enterRun_of_zero rfl]
  rfl

/-! ### The run length and the reads (R191 to R193) -/

/-- Settles O42: the write has no check and no other effect. -/
theorem runLengthWriteStoresTheBudget : Obligations.RunLengthWriteStoresTheBudget :=
  exec_wmRlwr

/-- Settles O43: the two words are the bit fields 31:0 and 63:32 of the result, each a shift and a cut. -/
theorem monitorReadsReturnTheResult : Obligations.MonitorReadsReturnTheResult := fun s =>
  ⟨exec_wmRd0 s, exec_wmRd1 s, exec_statusRd s⟩

end Sys2Proof.Machine
end

section
/-! PROOFS. The monitor from bit to bit (43_whiteness_control.md): when a pattern or a tick takes a bit, how the
countdown ends, the transition table of `wm.state`, and a one-shot run as a whole. -/

namespace Sys2Proof.Machine

open Sys2Proof.Claims

/-! ### One monitor cycle (R186, R187) -/

/-- A monitor cycle on this state takes a bit. -/
def BitDue (s : State) : Prop := s.wm.state = .running ∧ Consumes s s.wm.l.onlyValid

theorem cycle_of_bitDue {s : State} (h : BitDue s) (rule : Bool → Monitor → Monitor) :
    s.wm.cycle Config.hw rule (s.monitorInput Config.hw).1 (s.monitorInput Config.hw).2 =
      (s.wm.update rule (sampledBit s)).countDown Config.hw := by
  have hnot := skips_eq_false_iff_consumes.2 h.2
  obtain ⟨hidle, -⟩ | ⟨-, hskip, -⟩ | ⟨-, -, he⟩ := Monitor.cycle_cases rule
    (s.monitorInput Config.hw).1 (s.monitorInput Config.hw).2 s.wm
  · exact absurd h.1 hidle
  · simp [hnot] at hskip
  · exact he

theorem cycle_of_not_bitDue {s : State} (h : ¬BitDue s) (rule : Bool → Monitor → Monitor) :
    s.wm.cycle Config.hw rule (s.monitorInput Config.hw).1 (s.monitorInput Config.hw).2 = s.wm := by
  obtain ⟨-, he⟩ | ⟨-, -, he⟩ | ⟨hrun, hnot, -⟩ := Monitor.cycle_cases rule
    (s.monitorInput Config.hw).1 (s.monitorInput Config.hw).2 s.wm
  · exact he
  · exact he
  · exact absurd ⟨hrun, skips_eq_false_iff_consumes.1 hnot⟩ h

/-! ### The patterns as operations (44_whiteness_modes.md R220) -/

theorem exists_patternRule {mode : BitVec 2} {subtype : Bool} (h : ¬(mode = 1#2 ∧ subtype = true)) :
    ∃ rule, PatternRule mode subtype rule := by
  fin_cases mode <;> cases subtype
  · exact ⟨_, .countOnes⟩
  · exact ⟨_, .countToggles⟩
  · exact ⟨_, .runLength⟩
  · exact absurd ⟨rfl, rfl⟩ h
  · exact ⟨_, .templateNonOverlapping⟩
  · exact ⟨_, .templateOverlapping⟩
  · exact ⟨_, .excursionMax⟩
  · exact ⟨_, .excursionHit⟩

/-- Decoding reads the four fields of a word. -/
theorem decodeControl_pack_fields (c : ControlWord) :
    decodeControl (Control.pack (Control.mode c) (Control.subtype c) (Control.onlyValid c) (Control.data c)) =
      decodeControl c :=
  decodeControl_of_encodeControl (encodeControl_decodeControl c)

/-- The pattern of the pair of a rule runs that rule. -/
theorem PatternRule.exec_decodeControl_pack {mode : BitVec 2} {subtype : Bool}
    {rule : Bool → Monitor → Monitor} (h : PatternRule mode subtype rule) (v : Bool) (d : BitVec 8)
    (s : State) : exec (decodeControl (Control.pack mode subtype v d)) s =
      runPattern mode subtype v d rule s := by
  have hrow : ∃ i, encodeControl i = some (Control.pack mode subtype v d) ∧
      exec i s = runPattern mode subtype v d rule s := by
    cases h with
    | countOnes => exact ⟨.wmCountOnes v d, rfl, rfl⟩
    | countToggles => exact ⟨.wmCountToggles v d, rfl, rfl⟩
    | runLength => exact ⟨.wmRunlen v d, rfl, rfl⟩
    | templateNonOverlapping => exact ⟨.wmTmatchNovl v d, rfl, rfl⟩
    | templateOverlapping => exact ⟨.wmTmatchOvl v d, rfl, rfl⟩
    | excursionMax => exact ⟨.wmMaxexcMax v d, rfl, rfl⟩
    | excursionHit => exact ⟨.wmMaxexcHit v d, rfl, rfl⟩
  obtain ⟨i, hi, he⟩ := hrow
  rw [decodeControl_of_encodeControl hi, he]

/-- The latched word determines the latched fields. -/
theorem holds_fields_iff {m : Monitor} {c : ControlWord} :
    m.holds (Control.mode c) (Control.subtype c) (Control.onlyValid c) (Control.data c) = true ↔
      m.l.word = c &&& 0xF0FF#16 := by
  rw [← Control.pack_fields, MonitorLatch.word]
  simp only [Monitor.holds, Bool.and_eq_true, decide_eq_true_eq, beq_iff_eq]
  constructor
  · rintro ⟨⟨⟨hmode, hsubtype⟩, honlyValid⟩, hdata⟩
    rw [hmode, hsubtype, honlyValid, hdata]
  · intro h
    refine ⟨⟨⟨?_, ?_⟩, ?_⟩, ?_⟩
    · simpa using congrArg Control.mode h
    · simpa using congrArg Control.subtype h
    · simpa using congrArg Control.onlyValid h
    · simpa using congrArg Control.data h

/-- A legal pattern takes the monitor's cycle while it is the latched one. -/
theorem exec_decodeControl_of_legal {c : ControlWord} (hc : ¬IllegalWord c) :
    ∃ rule, PatternRule (Control.mode c) (Control.subtype c) rule ∧ ∀ s : State,
      exec (decodeControl c) s = .next ((s.withWm (if s.wm.l.word = c &&& 0xF0FF#16 then
        s.wm.cycle Config.hw rule (s.monitorInput Config.hw).1 (s.monitorInput Config.hw).2
        else s.wm)).withReply .ok) := by
  have hpair : ¬(Control.mode c = 1#2 ∧ Control.subtype c = true) :=
    fun h => hc ((Control.and_patternMask_eq_iff rfl).2 h)
  obtain ⟨rule, hrule⟩ := exists_patternRule hpair
  refine ⟨rule, hrule, fun s => ?_⟩
  rw [← decodeControl_pack_fields, hrule.exec_decodeControl_pack, runPattern_eq]
  simp only [holds_fields_iff]

/-- A legal pattern that is not latched, or takes no bit, changes the result only. -/
theorem exec_decodeControl_of_no_bit {c : ControlWord} {s : State} (hc : ¬IllegalWord c)
    (h : ¬(s.wm.l.word = c &&& 0xF0FF#16 ∧ BitDue s)) :
    exec (decodeControl c) s = .next (s.withReply .ok) := by
  obtain ⟨rule, -, he⟩ := exec_decodeControl_of_legal hc
  have hwm : (if s.wm.l.word = c &&& 0xF0FF#16 then
      s.wm.cycle Config.hw rule (s.monitorInput Config.hw).1 (s.monitorInput Config.hw).2
      else s.wm) = s.wm := by
    split
    case isTrue hword => exact cycle_of_not_bitDue (fun hdue => h ⟨hword, hdue⟩) rule
    case isFalse => rfl
  rw [he, hwm]
  rfl

/-- Settles O53: each of the three conditions keeps the pattern from taking a bit. -/
theorem patternOutOfForceOrSkippedChangesNothing :
    Obligations.PatternOutOfForceOrSkippedChangesNothing := by
  intro c s hc hcases
  refine exec_decodeControl_of_no_bit hc fun ⟨hword, hrun, hbit⟩ => ?_
  obtain hidle | hother | ⟨honlyValid, hinvalid⟩ := hcases
  · exact hidle hrun
  · exact hother hword
  · simp [Consumes, honlyValid, hinvalid] at hbit

/-! ### The countdown (R186, R188, R189) -/

theorem Monitor.countDown_of_ne_one {C : Params} {m : Monitor} (h : m.remaining ≠ 1#32) :
    m.countDown C = { m with remaining := m.remaining - 1#32 } :=
  if_neg fun h0 => h (by bv_omega)

theorem Monitor.countDown_of_eq_one {C : Params} {m : Monitor} (h : m.remaining = 1#32) :
    m.countDown C = { m with remaining := 0#32 }.complete C := by
  unfold Monitor.countDown
  simp [h]

theorem Monitor.complete_of_oneShot {C : Params} {m : Monitor} (h : m.cfg.continuous = false) :
    m.complete C = { m with result := wmPack C m.counters, resultValid := true, state := .done } := by
  unfold Monitor.complete
  simp [h]

/-- In continuous mode the run is armed again under the latch it had. -/
theorem Monitor.complete_of_continuous {C : Params} {m : Monitor} (h : m.cfg.continuous = true)
    (hbudget : m.l.runLength ≠ 0#32) :
    m.complete C = { { m with result := wmPack C m.counters, resultValid := true }.clearRun with
      state := .running } :=
  (if_pos h).trans (Monitor.enterRun_of_budget hbudget)

/-- Settles O55: one less, and at 0 the completion's two ways. -/
theorem countdownCompletesAtZero : Obligations.CountdownCompletesAtZero := by
  intro m
  refine ⟨Monitor.countDown_of_ne_one, fun h1 honeShot => ?_, fun h1 hcont hbudget => ?_⟩
  · exact (Monitor.countDown_of_eq_one h1).trans (Monitor.complete_of_oneShot honeShot)
  · exact (Monitor.countDown_of_eq_one h1).trans (Monitor.complete_of_continuous hcont hbudget)

/-! ### What a bit taken does, and what else moves the monitor -/

theorem State.tickMonitor_of_rule {s : State} {rule : Bool → Monitor → Monitor}
    (h : s.wm.latchedRule = some rule) : s.tickMonitor Config.hw =
      some (s.wm.cycle Config.hw rule (s.monitorInput Config.hw).1 (s.monitorInput Config.hw).2) := by
  simp only [State.tickMonitor, h]

/-- A tick in which a bit is due takes it under a rule of the latched pair. -/
theorem exec_tick_of_bitDue {s : State} (hdue : BitDue s)
    (hlatch : ¬(s.wm.l.mode = 1#2 ∧ s.wm.l.subtype = true)) (x : BitVec 4) :
    ∃ rule t, PatternRule s.wm.l.mode s.wm.l.subtype rule ∧ exec (.tick x) s = .next t ∧
      t.wm = (s.wm.update rule (sampledBit s)).countDown Config.hw := by
  obtain ⟨rule, hrule⟩ := Option.ne_none_iff_exists'.1 (mt Monitor.latchedRule_eq_none_iff.1 hlatch)
  exact ⟨rule, _, Monitor.patternRule_of_latchedRule hrule,
    exec_tick_of_some (State.tickMonitor_of_rule hrule) x, cycle_of_bitDue hdue rule⟩

/-- A tick in which no bit is due completes and leaves the monitor alone, whatever is latched. -/
theorem exec_tick_of_not_bitDue {s : State} (h : ¬BitDue s) (x : BitVec 4) :
    ∃ t, exec (.tick x) s = .next t ∧ t.wm = s.wm := by
  cases hm : s.tickMonitor Config.hw with
  | none => exact absurd (State.tickMonitor_eq_none_iff.1 hm).2 h
  | some m =>
    refine ⟨_, exec_tick_of_some hm x, ?_⟩
    obtain ⟨rule, -, hcycle⟩ | ⟨-, hsame⟩ := tickMonitor_cases hm
    · exact hcycle.trans (cycle_of_not_bitDue h rule)
    · exact hsame

theorem MonitorLatch.word_and_mask (l : MonitorLatch) : l.word &&& 0xF0FF#16 = l.word := by
  rw [← Control.pack_fields, MonitorLatch.word, Control.mode_pack, Control.subtype_pack,
    Control.onlyValid_pack, Control.data_pack]

theorem MonitorLatch.illegalWord_word_iff {l : MonitorLatch} :
    IllegalWord l.word ↔ l.mode = 1#2 ∧ l.subtype = true := by
  rw [illegalWord_iff, MonitorLatch.word]
  simp [Control.illegal]

/-- Whichever operation takes a bit, the monitor is updated by a rule of the latched pair and counts down. -/
theorem wm_of_takesBit {i : Instr} {s t : State} (htakes : TakesBit i s)
    (hlatch : ¬(s.wm.l.mode = 1#2 ∧ s.wm.l.subtype = true)) (h : exec i s = .next t) :
    ∃ rule, PatternRule s.wm.l.mode s.wm.l.subtype rule ∧
      t.wm = (s.wm.update rule (sampledBit s)).countDown Config.hw := by
  obtain ⟨⟨x, rfl⟩ | rfl, hdue⟩ := htakes
  · obtain ⟨rule, t', hrule, he, hwm⟩ := exec_tick_of_bitDue hdue hlatch x
    cases he.symm.trans h
    exact ⟨rule, hrule, hwm⟩
  · obtain ⟨rule, hrule, he⟩ := exec_decodeControl_of_legal (mt MonitorLatch.illegalWord_word_iff.1 hlatch)
    cases (he s).symm.trans h
    simp only [MonitorLatch.word, Control.mode_pack, Control.subtype_pack] at hrule
    exact ⟨rule, hrule, (if_pos s.wm.l.word_and_mask.symm).trans (cycle_of_bitDue hdue rule)⟩

/-- A pattern that takes no bit leaves the monitor alone, the illegal one included. -/
theorem wm_of_pattern_of_not_takesBit {i : Instr} {c : ControlWord} {s t : State}
    (hi : encodeControl i = some c) (htakes : ¬TakesBit i s) (h : exec i s = .next t) : t.wm = s.wm := by
  obtain rfl := decodeControl_of_encodeControl hi
  by_cases hc : IllegalWord c
  · have hillegal : decodeControl c = .wmIllegal (c.getLsbD 12) (c.setWidth 8) :=
      (and_patternMask_eq_iff_decodeControl_eq (row := 0x6000#16) rfl rfl).1 hc
    rw [hillegal] at h
    exact congrArg (·.wm) (raise_next h)
  · have hnot : ¬(s.wm.l.word = c &&& 0xF0FF#16 ∧ BitDue s) := by
      rintro ⟨hword, hdue⟩
      rw [← Control.pack_fields] at hword
      exact htakes ⟨.inr (hword ▸ (decodeControl_pack_fields c).symm), hdue⟩
    cases (exec_decodeControl_of_no_bit hc hnot).symm.trans h
    rfl

/-- Reset, an arming request and a bit taken are all that can move `wm.state`. -/
theorem wm_state_of_not_takesBit {i : Instr} {s t : State} (hreset : i ≠ .reset) (harms : ¬Arms i s)
    (htakes : ¬TakesBit i s) (h : exec i s = .next t) : t.wm.state = s.wm.state := by
  cases i with
  | wmCountOnes | wmCountToggles | wmRunlen | wmIllegal | wmTmatchNovl | wmTmatchOvl | wmMaxexcMax
  | wmMaxexcHit => exact congrArg Monitor.state (wm_of_pattern_of_not_takesBit rfl htakes h)
  | tick x =>
    have hdue : ¬BitDue s := fun hdue => htakes ⟨.inl ⟨x, rfl⟩, hdue⟩
    obtain ⟨t', he, hwm⟩ := exec_tick_of_not_bitDue hdue x
    cases he.symm.trans h
    exact congrArg Monitor.state hwm
  | wmCtlwr request continuous source control =>
    obtain ⟨-, he⟩ | ⟨-, -, -, -, he⟩ | ⟨hlegal, -, ⟨-, he⟩ | ⟨-, -, he⟩ | ⟨rfl, hidle, -⟩⟩ :=
      exec_wmCtlwr_cases request continuous source control s
    case inr.inr.inr.inr =>
      have hword : ¬IllegalWord control := by simp [illegalWord_iff, hlegal]
      exact absurd ⟨continuous, source, control, rfl, hword, hidle⟩ harms
    all_goals
      cases he.symm.trans h
      rfl
  | wmRlwr v => exact congrArg (·.wm.state) (finish_next h)
  | reset => exact absurd rfl hreset
  | _ =>
    obtain ⟨-, -, hwm, -⟩ := (exec_effect h).frame
    exact congrArg Monitor.state (hwm rfl)

/-! ### The transition table (R180) -/

theorem Monitor.enterRun_state (C : Params) (m : Monitor) :
    (m.enterRun C).state = if m.l.runLength = 0#32 then .done else .running := by
  unfold Monitor.enterRun
  split_ifs <;> rfl

/-- A Running monitor goes to Done with the last bit of a one-shot run only. -/
theorem Monitor.countDown_state {m : Monitor} (hrun : m.state = .running) (hbudget : m.l.runLength ≠ 0#32) :
    (m.countDown Config.hw).state =
      if m.remaining = 1#32 ∧ m.cfg.continuous = false then .done else .running := by
  obtain ⟨hgoes, hends, hrearms⟩ := countdownCompletesAtZero m
  by_cases h1 : m.remaining = 1#32
  · cases hcont : m.cfg.continuous with
    | false => simp [hends h1 hcont, h1]
    | true => simp [hrearms h1 hcont hbudget]
  · simp [hgoes h1, h1, hrun]

theorem wm_state_of_takesBit {i : Instr} {s t : State} (hs : s.wm.Inv) (htakes : TakesBit i s)
    (h : exec i s = .next t) : t.wm.state =
      if s.wm.remaining = 1#32 ∧ s.wm.cfg.continuous = false then .done else .running := by
  obtain ⟨rule, hrule, hwm⟩ := wm_of_takesBit htakes hs.latchLegal h
  obtain ⟨-, hrun, -⟩ := htakes
  obtain ⟨hcfg, hl, hstate, hrem⟩ : s.wm.SameControl (s.wm.update rule (sampledBit s)) :=
    sameControl_of_patternRule hrule (sampledBit s) s.wm
  have hbudget : s.wm.l.runLength ≠ 0#32 := by
    have hleft := hs.runningBudget hrun
    have hle := hs.remainingBound
    bv_omega
  rw [hwm, Monitor.countDown_state (hstate.trans hrun) (hl ▸ hbudget), hcfg, hrem]

/-- Settles O56: each operation resets, arms, takes a bit, or does not touch `wm.state`. -/
theorem monitorTransitionsFollowTheTable : Obligations.MonitorTransitionsFollowTheTable := by
  intro i s t hs h
  refine ⟨?_, ?_, ?_, ?_⟩
  · rintro rfl
    exact congrArg (·.wm.state) (finish_next h)
  · rintro ⟨continuous, source, control, rfl, hword, hidle⟩
    cases (exec_wmCtlwr_of_request_latch hword hidle).symm.trans h
    exact Monitor.enterRun_state _ _
  · rintro ⟨htakes, hends⟩
    exact (wm_state_of_takesBit hs.wm htakes h).trans (if_pos hends)
  · intro hreset harms hends
    by_cases htakes : TakesBit i s
    · rw [wm_state_of_takesBit hs.wm htakes h, if_neg fun hlast => hends ⟨htakes, hlast⟩]
      exact htakes.2.1.symm
    · exact wm_state_of_not_takesBit hreset harms htakes h

/-! ### A one-shot run (R194) -/

theorem Monitor.bumpTemplate_resultValid (m : Monitor) : m.bumpTemplate.resultValid = m.resultValid := by
  unfold Monitor.bumpTemplate
  split <;> rfl

theorem Monitor.moveSum_resultValid (b : Bool) (m : Monitor) :
    (m.moveSum b).resultValid = m.resultValid := by
  unfold Monitor.moveSum
  split <;> rfl

/-- The update rules leave the old result's flag to the completion (R188). -/
theorem resultValid_of_patternRule {mode : BitVec 2} {subtype : Bool} {rule : Bool → Monitor → Monitor}
    (hrule : PatternRule mode subtype rule) (b : Bool) (m : Monitor) :
    (rule b m).resultValid = m.resultValid := by
  cases hrule with
  | countOnes | countToggles =>
    dsimp only [countOnes, countToggles]
    split <;> rfl
  | runLength =>
    dsimp only [runLength, Monitor.trackRun, Monitor.closeRun]
    split_ifs <;> rfl
  | templateNonOverlapping | templateOverlapping =>
    dsimp only [templateNonOverlapping, templateOverlapping]
    split
    · exact (m.shiftWindow b).bumpTemplate_resultValid
    · rfl
  | excursionMax | excursionHit =>
    dsimp only [excursionMax, excursionHit]
    split_ifs <;> exact m.moveSum_resultValid b

/-- The monitor is in a one-shot run with bits to go. -/
structure Monitor.OneShot (m : Monitor) : Prop where
  running : m.state = .running
  latchLegal : ¬(m.l.mode = 1#2 ∧ m.l.subtype = true)
  oneShot : m.cfg.continuous = false
  budget : m.remaining ≠ 0#32

/-- The run has ended with the counters packed (R188). -/
structure Monitor.Completed (m : Monitor) : Prop where
  done : m.state = .done
  remaining : m.remaining = 0#32
  resultValid : m.resultValid = true
  result : m.result = wmPack Config.hw m.counters

/-- One bit less to go under the same latch, the old result's flag unchanged. -/
structure Monitor.OneLess (m m' : Monitor) : Prop where
  oneShot : m'.OneShot
  latch : m'.l = m.l
  resultValid : m'.resultValid = m.resultValid
  remaining : m'.remaining.toNat + 1 = m.remaining.toNat

/-- A bit taken ends a one-shot run or brings it one bit further. -/
theorem Monitor.OneShot.update_countDown {m : Monitor} {rule : Bool → Monitor → Monitor} (h : m.OneShot)
    (hrule : PatternRule m.l.mode m.l.subtype rule) (b : Bool) :
    (m.remaining = 1#32 ∧ ((m.update rule b).countDown Config.hw).Completed) ∨
      m.OneLess ((m.update rule b).countDown Config.hw) := by
  obtain ⟨hcfg, hl, hstate, hrem⟩ : m.SameControl (m.update rule b) := sameControl_of_patternRule hrule b m
  obtain ⟨hgoes, hends, -⟩ := countdownCompletesAtZero (m.update rule b)
  rw [hrem] at hgoes hends
  rw [hcfg] at hends
  by_cases h1 : m.remaining = 1#32
  · refine .inl ⟨h1, ?_⟩
    rw [hends h1 h.oneShot]
    exact ⟨rfl, rfl, rfl, rfl⟩
  · have hbudget := h.budget
    refine .inr ?_
    rw [hgoes h1]
    exact {
      oneShot := ⟨hstate.trans h.running, hl ▸ h.latchLegal, hcfg ▸ h.oneShot, by simp only; bv_omega⟩
      latch := hl
      resultValid := resultValid_of_patternRule hrule b m
      remaining := by simp only; bv_omega }

/-- A tick of a one-shot run is skipped, ends the run, or brings it one bit further. -/
theorem exec_tick_of_oneShot {s : State} (h : s.wm.OneShot) (x : BitVec 4) :
    ∃ t, exec (.tick x) s = .next t ∧
      ((¬BitDue s ∧ t.wm = s.wm) ∨ (BitDue s ∧ s.wm.remaining = 1#32 ∧ t.wm.Completed) ∨
        (BitDue s ∧ s.wm.OneLess t.wm)) := by
  by_cases hdue : BitDue s
  · obtain ⟨rule, t, hrule, he, hwm⟩ := exec_tick_of_bitDue hdue h.latchLegal x
    refine ⟨t, he, .inr ?_⟩
    rw [hwm]
    exact (h.update_countDown hrule _).imp (.intro hdue) (.intro hdue)
  · obtain ⟨t, he, hwm⟩ := exec_tick_of_not_bitDue hdue x
    exact ⟨t, he, .inl ⟨hdue, hwm⟩⟩

theorem ticksTakingBits_cons_of_bitDue {s t : State} {x : BitVec 4} (hdue : BitDue s)
    (h : exec (.tick x) s = .next t) (xs : List (BitVec 4)) :
    ticksTakingBits (x :: xs) s = 1 + ticksTakingBits xs t := by
  simp only [ticksTakingBits, h]
  exact congrArg (· + _) (if_pos hdue)

theorem ticksTakingBits_cons_of_not_bitDue {s t : State} {x : BitVec 4} (hdue : ¬BitDue s)
    (h : exec (.tick x) s = .next t) (xs : List (BitVec 4)) :
    ticksTakingBits (x :: xs) s = ticksTakingBits xs t := by
  simp only [ticksTakingBits, h]
  exact (congrArg (· + _) (if_neg hdue)).trans (Nat.zero_add _)

/-- Ticks leave a monitor that does not run as it is (10_state.md R30). -/
theorem runAll_ticks_of_not_running (xs : List (BitVec 4)) {s : State} (h : s.wm.state ≠ .running) :
    ∃ t, runAll (xs.map Instr.tick) s = .next t ∧ t.wm = s.wm ∧ ticksTakingBits xs s = 0 := by
  induction xs generalizing s with
  | nil => exact ⟨s, rfl, rfl, rfl⟩
  | cons x xs ih =>
    have hdue : ¬BitDue s := fun hdue => h hdue.1
    obtain ⟨t, he, hwm⟩ := exec_tick_of_not_bitDue hdue x
    obtain ⟨u, hu, huwm, hcount⟩ := ih (hwm ▸ h)
    rw [List.map_cons, runAll_cons_of_next he, ticksTakingBits_cons_of_not_bitDue hdue he]
    exact ⟨u, hu, huwm.trans hwm, hcount⟩

/-- Where a one-shot run from `m` stands at `m'` when `n` bits have been taken. -/
def Monitor.RunsTo (m : Monitor) (n : Nat) (m' : Monitor) : Prop :=
  (m'.state = .running ∧ m'.remaining ≠ 0#32 ∧ m'.resultValid = m.resultValid ∧
      m'.remaining.toNat + n = m.remaining.toNat) ∨
    (m'.state = .done ∧ m'.remaining = 0#32 ∧ m'.resultValid = true ∧
      m'.result = wmPack Config.hw m'.counters ∧ n = m.remaining.toNat)

theorem Monitor.Completed.runsTo {m m' : Monitor} (h : m'.Completed) (hlast : m.remaining = 1#32) :
    m.RunsTo 1 m' :=
  .inr ⟨h.done, h.remaining, h.resultValid, h.result, (congrArg BitVec.toNat hlast).symm⟩

theorem Monitor.OneLess.runsTo {m m' u : Monitor} {n : Nat} (h : m.OneLess m') (hu : m'.RunsTo n u) :
    m.RunsTo (1 + n) u := by
  have hrem := h.remaining
  obtain ⟨hrun, hleft, hvalid, hcount⟩ | ⟨hdone, hleft, hvalid, hresult, hcount⟩ := hu
  · exact .inl ⟨hrun, hleft, hvalid.trans h.resultValid, by omega⟩
  · exact .inr ⟨hdone, hleft, hvalid, hresult, by omega⟩

/-- Ticks run a one-shot run bit by bit; when every cycle counts, each tick takes a bit until the end. -/
theorem runAll_ticks_of_oneShot (xs : List (BitVec 4)) {s : State} (h : s.wm.OneShot) :
    ∃ t, runAll (xs.map Instr.tick) s = .next t ∧ s.wm.RunsTo (ticksTakingBits xs s) t.wm ∧
      (s.wm.l.onlyValid = false → ticksTakingBits xs s = min xs.length s.wm.remaining.toNat) := by
  induction xs generalizing s with
  | nil => exact ⟨s, rfl, .inl ⟨h.running, h.budget, rfl, rfl⟩, fun _ => (Nat.zero_min _).symm⟩
  | cons x xs ih =>
    obtain ⟨t, he, ⟨hdue, hwm⟩ | ⟨hdue, hlast, hdone⟩ | ⟨hdue, hless⟩⟩ := exec_tick_of_oneShot h x
    all_goals rw [List.map_cons, runAll_cons_of_next he]
    case inl =>
      rw [ticksTakingBits_cons_of_not_bitDue hdue he]
      obtain ⟨u, hu, hruns, -⟩ := ih (hwm ▸ h)
      exact ⟨u, hu, hwm ▸ hruns, fun hall => absurd ⟨h.running, .inl hall⟩ hdue⟩
    case inr.inl =>
      obtain ⟨u, hu, huwm, hcount⟩ := runAll_ticks_of_not_running xs (s := t) (by simp [hdone.done])
      rw [ticksTakingBits_cons_of_bitDue hdue he, hcount]
      refine ⟨u, hu, huwm ▸ hdone.runsTo hlast, fun _ => ?_⟩
      simp [hlast]
    case inr.inr =>
      rw [ticksTakingBits_cons_of_bitDue hdue he]
      obtain ⟨u, hu, hruns, hall⟩ := ih hless.oneShot
      refine ⟨u, hu, hless.runsTo hruns, fun honlyValid => ?_⟩
      have hrem := hless.remaining
      rw [hall (hless.latch ▸ honlyValid), List.length_cons]
      omega

/-- Settles O60: the hypotheses are a one-shot run with bits to go. -/
theorem monitorRunTakesExactlyItsBudgetInTicks : Obligations.MonitorRunTakesExactlyItsBudgetInTicks :=
  fun xs _ hrun hlatch honeShot hbudget =>
    runAll_ticks_of_oneShot xs ⟨hrun, hlatch, honeShot, hbudget⟩

end Sys2Proof.Machine
end

section
/-! PROOFS. The update rules (44_whiteness_modes.md): each rule of R220's table as one record of what it writes,
a pattern in force as the rule and the countdown, and the latched pair without a rule. -/

namespace Sys2Proof.Machine

open Sys2Proof.Claims

/-! ### The latched (1,1) (R220) -/

/-- Settles O33: the monitor's part of such a tick has no rule to apply. -/
theorem latchedIllegalPatternFaults : Obligations.LatchedIllegalPatternFaults :=
  fun x _ hrun hmode hsubtype hbit =>
    exec_tick_of_none (State.tickMonitor_eq_none_iff.2
      ⟨Monitor.latchedRule_eq_none_iff.2 ⟨hmode, hsubtype⟩, hrun, hbit⟩) x

/-- The only fault of an operation needs a latched (1,1). -/
theorem safe_exec_of_latchLegal {s : State} (h : ¬(s.wm.l.mode = 1#2 ∧ s.wm.l.subtype = true)) (i : Instr) :
    Safe (exec i s) := by
  obtain ⟨_, he⟩ | ⟨_, _, -, -, he⟩ | ⟨-, -, he⟩ | ⟨_, _, -, -, -, he⟩ | ⟨_, -, -, hmode, hsubtype, -⟩ :=
    operationsStopOnlyInTheNamedCases i s
  case inr.inr.inr.inr => exact absurd ⟨hmode, hsubtype⟩ h
  all_goals
    rw [he]
    trivial

/-- Settles O12: taking a request keeps the latched pair legal, and an undecodable one is refused. -/
theorem goodStatesNeverFault : Obligations.GoodStatesNeverFault := by
  intro s hs
  cases hdecode : decode s.fetch.1 with
  | ok i =>
    rw [step_of_decode_ok rfl hdecode]
    exact safe_exec_of_latchLegal hs.fetch.wm.latchLegal i
  | error why =>
    rw [step_of_decode_error rfl hdecode]
    trivial

/-! ### A pattern in force -/

/-- A pattern in force whose cycle is not skipped applies its rule to the sampled bit and counts down. -/
theorem runPattern_of_inForce {mode : BitVec 2} {subtype v : Bool} {d : BitVec 8} {s : State}
    (hforce : InForce s mode subtype v d) (hbit : Consumes s v) (rule : Bool → Monitor → Monitor) :
    runPattern mode subtype v d rule s =
      .next ((s.withWm ((s.wm.update rule (sampledBit s)).countDown Config.hw)).withReply .ok) := by
  obtain ⟨hrun, rfl, rfl, rfl, rfl⟩ := hforce
  rw [runPattern_eq, if_pos (by simp [Monitor.holds]), cycle_of_bitDue ⟨hrun, hbit⟩]

/-! ### Count (R222, R223) -/

theorem countOnes_eq (b : Bool) (m : Monitor) :
    countOnes b m = { m with counters := { m.counters with
      c0 := if b then m.counters.c0 + 1#32 else m.counters.c0 } } := by
  cases b <;> rfl

theorem countToggles_eq (b : Bool) (m : Monitor) :
    countToggles b m = { m with counters := { m.counters with
      c0 := if m.prevValid = true ∧ b ≠ m.prevBit then m.counters.c0 + 1#32 else m.counters.c0 } } := by
  simp only [countToggles, Bool.and_eq_true, bne_iff_ne]
  split <;> rfl

/-- Settles O46: the rule writes counter 0 on a one. -/
theorem countOnesCountsOnes : Obligations.CountOnesCountsOnes := by
  intro v d s hforce hbit
  rw [exec_wmCountOnes, runPattern_of_inForce hforce hbit, Monitor.update, countOnes_eq]
  rfl

/-- Settles O47: the rule writes counter 0 on a bit other than the previous one. -/
theorem countTogglesCountsTransitions : Obligations.CountTogglesCountsTransitions := by
  intro v d s hforce hbit
  rw [exec_wmCountToggles, runPattern_of_inForce hforce hbit, Monitor.update, countToggles_eq]
  rfl

/-! ### RunLength (R224) -/

theorem eq_runThreshold_iff {x : BitVec 32} {d : BitVec 8} : x = runThreshold d ↔ x.toNat = d.toNat := by
  unfold runThreshold
  bv_omega

theorem runThreshold_lt_iff {x : BitVec 32} {d : BitVec 8} : runThreshold d < x ↔ d.toNat < x.toNat := by
  unfold runThreshold
  bv_omega

/-- A completed run counts in counter 0 at the threshold and in counter 1 above it. -/
theorem Monitor.closeRun_eq (m : Monitor) :
    m.closeRun = { m with counters := { m.counters with
      c0 := if m.run.toNat = m.l.data.toNat then m.counters.c0 + 1#32 else m.counters.c0
      c1 := if m.l.data.toNat < m.run.toNat then m.counters.c1 + 1#32 else m.counters.c1 } } := by
  simp only [Monitor.closeRun, eq_runThreshold_iff, runThreshold_lt_iff]
  split
  case isTrue heq => simp [heq, Monitor.bump0]
  case isFalse => split <;> rfl

/-- A run ends, and is counted, with a bit other than the previous one. -/
theorem Monitor.trackRun_eq (b : Bool) (m : Monitor) :
    let ends := m.prevValid = true ∧ b ≠ m.prevBit
    m.trackRun b = { m with
      run := if m.prevValid = true ∧ b = m.prevBit then m.run + 1#32 else 1#32
      counters := { m.counters with
        c0 := if ends ∧ m.run.toNat = m.l.data.toNat then m.counters.c0 + 1#32 else m.counters.c0
        c1 := if ends ∧ m.l.data.toNat < m.run.toNat then m.counters.c1 + 1#32 else m.counters.c1 } } := by
  unfold Monitor.trackRun
  rw [Monitor.closeRun_eq]
  cases hvalid : m.prevValid with
  | false => simp [hvalid]
  | true => by_cases hb : b = m.prevBit <;> simp [hb]

theorem runLength_eq (b : Bool) (m : Monitor) :
    runLength b m = { m.trackRun b with counters := { (m.trackRun b).counters with
      c2 := if b then m.counters.c2 else larger m.counters.c2 ((m.trackRun b).run - 1#32)
      c3 := if b then larger m.counters.c3 ((m.trackRun b).run - 1#32) else m.counters.c3 } } := by
  have hkeep : (m.trackRun b).counters.c2 = m.counters.c2 ∧ (m.trackRun b).counters.c3 = m.counters.c3 := by
    rw [Monitor.trackRun_eq]
    exact ⟨rfl, rfl⟩
  rw [← hkeep.1, ← hkeep.2]
  cases b <;> rfl

/-- Settles O48: the run is closed or goes on, and its new length is held against the longest. -/
theorem runLengthTracksRuns : Obligations.RunLengthTracksRuns := by
  intro v d s hforce hbit
  rw [exec_wmRunlen, runPattern_of_inForce hforce hbit, Monitor.update, runLength_eq, Monitor.trackRun_eq]
  obtain ⟨-, -, -, -, rfl⟩ := hforce
  rfl

/-! ### TemplateMatch (R225 to R227) -/

theorem eq_append_iff {w v : Nat} {x : BitVec (w + v)} {high : BitVec w} {low : BitVec v} :
    x = high ++ low ↔ x.extractLsb' v w = high ∧ x.extractLsb' 0 v = low := by
  constructor
  · rintro rfl
    exact ⟨BitVec.extractLsb'_append_eq_left, BitVec.extractLsb'_append_eq_right⟩
  · rintro ⟨rfl, rfl⟩
    exact BitVec.extractLsb'_append_extractLsb'.symm

/-- The bit enters below all but the top bit. -/
theorem shiftIn_eq_append {w : Nat} (x : BitVec (w + 1)) (b : Bool) :
    shiftIn x b = x.extractLsb' 0 w ++ BitVec.ofBool b := by
  refine eq_append_iff.2 ⟨?_, ?_⟩
  · ext j hj
    simpa [Nat.add_comm 1 j, hj] using shiftIn_getLsbD_succ x b j (Nat.succ_lt_succ hj)
  · ext j hj
    obtain rfl : j = 0 := by omega
    simpa using shiftIn_getLsbD_zero x b w.succ_pos

theorem Monitor.shiftWindow_eq (b : Bool) (m : Monitor) :
    m.shiftWindow b = { m with window := nextWindow m b, fill := nextFill m } := by
  have hfill : BitVec.ofNat 3 (min (m.fill.toNat + 1) 6) = nextFill m := by
    unfold nextFill
    split <;> bv_omega
  have hwindow : shiftIn m.window b = nextWindow m b := shiftIn_eq_append m.window b
  rw [Monitor.shiftWindow, hwindow, hfill]

/-- The new window is template `k`: a hit, with `k` in the two newest bits. -/
theorem templateIs_iff {m : Monitor} {b : Bool} {k : BitVec 2} :
    templateIs m b m.l.data k = true ↔
      (m.shiftWindow b).templateHit = true ∧ (m.shiftWindow b).window.extractLsb' 0 2 = k := by
  have hwindow : nextWindow m b = (m.l.data.extractLsb' 2 4 ++ k : BitVec 6) ↔
      (nextWindow m b).extractLsb' 2 4 = m.l.data.extractLsb' 2 4 ∧ (nextWindow m b).extractLsb' 0 2 = k :=
    eq_append_iff (w := 4) (v := 2)
  simp only [templateIs, Monitor.templateHit, Monitor.shiftWindow_eq, templateHigh, Bool.and_eq_true,
    beq_iff_eq, decide_eq_true_eq, hwindow, and_assoc]

theorem templateHit_iff {m : Monitor} {b : Bool} :
    (m.shiftWindow b).templateHit = true ↔ ∃ k, templateIs m b m.l.data k = true := by
  simp [templateIs_iff]

/-- The counter whose number stands in the two newest bits goes up. -/
theorem Monitor.bumpTemplate_eq (m : Monitor) :
    let k := m.window.extractLsb' 0 2
    m.bumpTemplate = { m with counters :=
      ⟨if k = 0#2 then m.counters.c0 + 1#32 else m.counters.c0,
        if k = 1#2 then m.counters.c1 + 1#32 else m.counters.c1,
        if k = 2#2 then m.counters.c2 + 1#32 else m.counters.c2,
        if k = 3#2 then m.counters.c3 + 1#32 else m.counters.c3⟩ } := by
  have h1 : m.window.getLsbD 1 = (m.window.extractLsb' 0 2).getLsbD 1 := by simp
  have h0 : m.window.getLsbD 0 = (m.window.extractLsb' 0 2).getLsbD 0 := by simp
  rw [Monitor.bumpTemplate, h1, h0]
  generalize m.window.extractLsb' 0 2 = k
  fin_cases k <;> rfl

/-- Both subtypes count alike: on a hit the counter of the one template that the window is. -/
theorem templateOverlapping_eq (b : Bool) (m : Monitor) :
    templateOverlapping b m = { m with
      counters := templateCounters m b m.l.data, window := nextWindow m b, fill := nextFill m } := by
  simp only [templateOverlapping, templateCounters, templateIs_iff]
  split
  case isTrue hhit =>
    simp only [hhit, true_and, Monitor.bumpTemplate_eq]
    simp only [Monitor.shiftWindow_eq]
  case isFalse hmiss =>
    simp only [hmiss]
    exact Monitor.shiftWindow_eq b m

/-- What the non-overlapping subtype adds is the fill of 0 after a hit. -/
theorem templateNonOverlapping_eq (b : Bool) (m : Monitor) :
    templateNonOverlapping b m = { templateOverlapping b m with
      fill := if (m.shiftWindow b).templateHit then 0#3 else nextFill m } := by
  simp only [templateNonOverlapping, templateOverlapping]
  split
  case isTrue => rfl
  case isFalse => rw [Monitor.shiftWindow_eq]

/-- Settles O50: the window, the fill and the counter of the matching template. -/
theorem overlappingMatchComparesEveryWindow : Obligations.OverlappingMatchComparesEveryWindow := by
  intro v d s hforce hbit
  rw [exec_wmTmatchOvl, runPattern_of_inForce hforce hbit, Monitor.update, templateOverlapping_eq]
  obtain ⟨-, -, -, -, rfl⟩ := hforce
  rfl

/-- Settles O49: the fill is 0 after a hit, and a hit is a match of some template. -/
theorem nonOverlappingMatchRestartsTheWindow : Obligations.NonOverlappingMatchRestartsTheWindow := by
  intro v d s hforce hbit
  rw [exec_wmTmatchNovl, runPattern_of_inForce hforce hbit, Monitor.update, templateNonOverlapping_eq,
    templateOverlapping_eq]
  obtain ⟨-, -, -, -, rfl⟩ := hforce
  exact ⟨_, fun h => if_pos (templateHit_iff.2 h), fun h => if_neg (mt templateHit_iff.1 h), rfl⟩

/-! ### MaxExcursion (R228 to R230) -/

theorem Monitor.moveSum_eq (b : Bool) (m : Monitor) :
    m.moveSum b = { m with
      sum := nextSum m b
      counters := { m.counters with
        c0 := if nextSum m b = 0#33 then m.counters.c0 + 1#32 else m.counters.c0 } } := by
  have hsum : m.movedSum b = nextSum m b := rfl
  rw [Monitor.moveSum, hsum]
  split <;> rfl

theorem Monitor.magnitude_of_pos {m : Monitor} (h : 0 < m.sum.toInt) :
    m.magnitude = BitVec.ofInt 32 m.sum.toInt := by
  rw [Monitor.magnitude, ← BitVec.ofInt_natCast, Int.natAbs_of_nonneg h.le]

theorem Monitor.magnitude_of_neg {m : Monitor} (h : m.sum.toInt < 0) :
    m.magnitude = BitVec.ofInt 32 (-m.sum.toInt) := by
  rw [Monitor.magnitude, ← BitVec.ofInt_natCast, Int.ofNat_natAbs_of_nonpos h.le]

/-- The sign of the new sum chooses the counter that its magnitude may raise. -/
theorem excursionMax_eq (b : Bool) (m : Monitor) :
    let m' := m.moveSum b
    excursionMax b m = { m' with counters := { m'.counters with
      c2 := if 0 < m'.sum.toInt then larger m'.counters.c2 (BitVec.ofInt 32 m'.sum.toInt)
        else m'.counters.c2
      c3 := if m'.sum.toInt < 0 then larger m'.counters.c3 (BitVec.ofInt 32 (-m'.sum.toInt))
        else m'.counters.c3 } } := by
  dsimp only [excursionMax]
  split
  case isTrue hpos =>
    rw [if_neg hpos.not_gt, Monitor.magnitude_of_pos hpos]
    rfl
  case isFalse =>
    split
    case isTrue hneg =>
      rw [Monitor.magnitude_of_neg hneg]
      rfl
    case isFalse => rfl

/-- Settles O51: the new sum, the return to zero, and the magnitude on its side. -/
theorem excursionMaximaAreTracked : Obligations.ExcursionMaximaAreTracked := by
  intro v d s hforce hbit
  rw [exec_wmMaxexcMax, runPattern_of_inForce hforce hbit, Monitor.update, excursionMax_eq,
    Monitor.moveSum_eq]
  rfl

theorem toInt_signedThreshold (d : BitVec 8) : (signedThreshold d).toInt = d.toInt :=
  BitVec.toInt_signExtend_of_le (by decide)

/-- In 33 bits the negated threshold does not wrap. -/
theorem toInt_neg_signedThreshold (d : BitVec 8) : (-signedThreshold d).toInt = -d.toInt := by
  have hlo := d.le_toInt
  have hhi := d.toInt_lt
  rw [BitVec.toInt_neg, toInt_signedThreshold, Int.bmod_eq_of_le] <;> omega

theorem eq_signedThreshold_iff {x : BitVec 33} {d : BitVec 8} :
    x = signedThreshold d ↔ x.toInt = d.toInt := by
  rw [← BitVec.toInt_inj, toInt_signedThreshold]

theorem eq_neg_signedThreshold_iff {x : BitVec 33} {d : BitVec 8} :
    x = -signedThreshold d ↔ x.toInt = -d.toInt := by
  rw [← BitVec.toInt_inj, toInt_neg_signedThreshold]

/-- Counters 2 and 3 are independent of each other: at `N = 0` both count. -/
theorem excursionHit_eq (b : Bool) (m : Monitor) :
    let m' := m.moveSum b
    excursionHit b m = { m' with counters := { m'.counters with
      c2 := if m'.sum.toInt = m.l.data.toInt then m'.counters.c2 + 1#32 else m'.counters.c2
      c3 := if m'.sum.toInt = -m.l.data.toInt then m'.counters.c3 + 1#32 else m'.counters.c3 } } := by
  simp only [excursionHit, ← eq_signedThreshold_iff, ← eq_neg_signedThreshold_iff]
  split <;> split <;> rfl

/-- Settles O52: the new sum, the return to zero, and the hits at the signed data and its negative. -/
theorem excursionHitsAreCounted : Obligations.ExcursionHitsAreCounted := by
  intro v d s hforce hbit
  rw [exec_wmMaxexcHit, runPattern_of_inForce hforce hbit, Monitor.update, excursionHit_eq,
    Monitor.moveSum_eq]
  obtain ⟨-, -, -, -, rfl⟩ := hforce
  rfl

end Sys2Proof.Machine
end

section
/-! PROOFS. The top level (45_top_and_interface.md): the clock tick as the three component operations on one
pre-tick state, and the register-layer operations of the combiner. -/

namespace Sys2Proof.Machine

open Sys2Proof.Claims

/-! ### The tick (R260) -/

theorem Monitor.holds_latched (m : Monitor) :
    m.holds m.l.mode m.l.subtype m.l.onlyValid m.l.data = true := by
  simp [holds]

/-- The latched word run as a pattern is the monitor's cycle under the latched rule. -/
theorem exec_decodeControl_latched {s : State} {rule : Bool → Monitor → Monitor}
    (h : s.wm.latchedRule = some rule) : exec (decodeControl s.wm.l.word) s =
      .next ((s.withWm (s.wm.cycle Config.hw rule (s.monitorInput Config.hw).1
        (s.monitorInput Config.hw).2)).withReply .ok) := by
  rw [MonitorLatch.word, (Monitor.patternRule_of_latchedRule h).exec_decodeControl_pack, runPattern_eq,
    if_pos s.wm.holds_latched]

/-- An enabled combiner steps once a tick: the block's `stepsPerTick` is 1. -/
theorem Prng.tick_hw (p : Prng) :
    p.tick Config.hw = if p.enable then p.clock Config.hw 1 else p := rfl

/-- Settles O32: a legal latched pair has a rule, and the tick gathers what the pattern of that rule, the
clocking and the drive each make of the pre-tick state. -/
theorem tickStepsAllComponentsAtOnce : Obligations.TickStepsAllComponentsAtOnce := by
  intro x s hlatch
  obtain ⟨rule, hrule⟩ := Option.ne_none_iff_exists'.1 (mt Monitor.latchedRule_eq_none_iff.1 hlatch)
  refine ⟨_, _, _, exec_decodeControl_latched hrule, exec_prngClock 1 s, exec_emuxDrive x s, ?_⟩
  rw [exec_tick_of_some (State.tickMonitor_of_rule hrule), Prng.tick_hw]
  rfl

/-! ### The configuration write (R261) -/

/-- Settles O27: the two clauses are the two sides of the bound. -/
theorem prngConfigWriteChecksMinValid : Obligations.PrngConfigWriteChecksMinValid := by
  intro enable minValid s
  rw [exec_prngCfgwr]
  exact ⟨fun hle => if_neg (BitVec.not_lt.2 hle), fun hlt => if_pos hlt⟩

/-! ### The data word (R262) -/

/-- The data word is one bit: the vote parity, gated by `enable` and by the number of votes. -/
theorem Prng.data_eq_readWord (p : Prng) : p.data = readWord p := by
  rw [data, valid_eq_enable_and_enoughVotes, bit_eq_voteParity, readWord]
  simp only [← Bool.and_eq_true, ← Bool.and_assoc]
  cases p.enable && enoughVotes p && voteParity p <;> rfl

/-- Settles O28: the read answers the data word, and `finish` changes the result only. -/
theorem prngReadIsZeroUnlessValid : Obligations.PrngReadIsZeroUnlessValid := by
  intro s
  rw [exec_prngRd, Prng.data_eq_readWord]
  rfl

end Sys2Proof.Machine
end

section
/-! PROOFS. The reset operation (70_reset_and_hazards.md R330). -/

namespace Sys2Proof.Machine

/-- Settles O9: the operation replaces the three components by those of the reset state, with no check on the
state it finds. -/
theorem resetOperationRestoresTheResetValues : Obligations.ResetOperationRestoresTheResetValues :=
  fun s => ⟨_, exec_reset s, rfl, rfl, rfl, rfl⟩

end Sys2Proof.Machine
end
